-- ==== Sys2Proof/Word.lean ====
section
/-! DEFINITION. The unsigned widths of the decode core (`00_scope.md` R8, R11, R13; `30_encoding.md` R74). -/

namespace Sys2Proof

/-- One cell of `MEM`, one `V` register, a `Data` operand, a timer: 8 bits (R8, R74). -/
abbrev Byte := BitVec 8

/-- A fetched word, `I`, `PC`, a stack entry: 16 bits (R8, R9). -/
abbrev Word := BitVec 16

/-- The `Address` operand: 0 to 4095 (R74). -/
abbrev Address := BitVec 12

/-- The `Register` operand: 0 to 15 (R74). -/
abbrev Register := BitVec 4

/-- The `Nibble` operand, the sprite height: 0 to 15 (R74). -/
abbrev Nibble := BitVec 4

end Sys2Proof
end

