-- ==== Sys2Proof/Syntax.lean ====
section
/-! DEFINITION. The closed set of 35 typed instructions (`30_encoding.md` R74, R76; `41_opcode_table_decoder.md` R110),
the names of the table rows, and the six formats (R71). -/

namespace Sys2Proof

/-- The `Instruction` type: one constructor per row of the Opcode Table (R76), in table order, each carrying its operands in
the order x, y, immediate (R75). -/
inductive Instr where
  | clearScreen
  | ret
  | sys (nnn : Address)
  | jump (nnn : Address)
  | call (nnn : Address)
  | skipEqualByte (x : Register) (kk : Byte)
  | skipNotEqualByte (x : Register) (kk : Byte)
  | skipEqualRegister (x y : Register)
  | loadByte (x : Register) (kk : Byte)
  | addByte (x : Register) (kk : Byte)
  | loadRegister (x y : Register)
  | orRegister (x y : Register)
  | andRegister (x y : Register)
  | xorRegister (x y : Register)
  | addRegister (x y : Register)
  | subRegister (x y : Register)
  | shiftRight (x y : Register)
  | subNRegister (x y : Register)
  | shiftLeft (x y : Register)
  | skipNotEqualRegister (x y : Register)
  | loadIndex (nnn : Address)
  | jumpOffset (nnn : Address)
  | random (x : Register) (kk : Byte)
  | displaySprite (x y : Register) (n : Nibble)
  | skipKeyPress (x : Register)
  | skipKeyNotPress (x : Register)
  | loadFromDelay (x : Register)
  | loadKeyPress (x : Register)
  | loadDelay (x : Register)
  | loadSound (x : Register)
  | addIndex (x : Register)
  | loadFont (x : Register)
  | storeBcd (x : Register)
  | storeRegisters (x : Register)
  | loadRegisters (x : Register)
  deriving DecidableEq, Repr

/-- The variant of a table row without its operands (`41_opcode_table_decoder.md` R100, R102 (b)). -/
inductive Op where
  | clearScreen | ret | sys | jump | call
  | skipEqualByte | skipNotEqualByte | skipEqualRegister
  | loadByte | addByte | loadRegister | orRegister | andRegister | xorRegister
  | addRegister | subRegister | shiftRight | subNRegister | shiftLeft
  | skipNotEqualRegister | loadIndex | jumpOffset | random | displaySprite
  | skipKeyPress | skipKeyNotPress
  | loadFromDelay | loadKeyPress | loadDelay | loadSound
  | addIndex | loadFont | storeBcd | storeRegisters | loadRegisters
  deriving DecidableEq, Repr

/-- The six instruction formats (R71). -/
inductive Format where
  | z | a | xk | xy | xyn | x
  deriving DecidableEq, Repr

/-- The operand fields of a word, zero where the format carries no such field (R72; the operand ports of R112). -/
structure Operands where
  nnn : Address := 0
  x : Register := 0
  y : Register := 0
  kk : Byte := 0
  n : Nibble := 0
  deriving DecidableEq, Repr

end Sys2Proof
end

