-- ==== Sys2Proof/WellFormed.lean ====
section
/-! DEFINITION. Which instruction values have an encoding (`30_encoding.md` R81). -/

namespace Sys2Proof

/-- An instruction value some word decodes to: all of them but `SYS(0x000)`, `SYS(0x0E0)` and `SYS(0x0EE)` (R81). The ranges
of R74 hold by the operands' types. -/
def WellFormed : Instr → Bool
  | .sys nnn => nnn != 0x000 && nnn != 0x0E0 && nnn != 0x0EE
  | _ => true

end Sys2Proof
end

