-- ==== Sys2Proof/Decode.lean ====
section
/-! DEFINITION. The Bit-Field Extractor (`40_bitfield_extractor.md`), the Opcode Table (`30_encoding.md` R76), the Decoder and the
dispatch mux (`41_opcode_table_decoder.md`), and the encoder (R87). -/

namespace Sys2Proof

/-! ## Bit-Field Extractor -/

/-- `F000(op) = op[15:12]` (R90). -/
def fF000 (op : Word) : BitVec 4 := op.extractLsb' 12 4

/-- `0FFF(op) = op[11:0]` (R91). -/
def f0FFF (op : Word) : BitVec 12 := op.extractLsb' 0 12

/-- `0F00(op) = op[11:8]` (R92). -/
def f0F00 (op : Word) : BitVec 4 := op.extractLsb' 8 4

/-- `00F0(op) = op[7:4]` (R93). -/
def f00F0 (op : Word) : BitVec 4 := op.extractLsb' 4 4

/-- `000F(op) = op[3:0]` (R94). -/
def f000F (op : Word) : BitVec 4 := op.extractLsb' 0 4

/-- `00FF(op) = op[7:0]` (R95). -/
def f00FF (op : Word) : BitVec 8 := op.extractLsb' 0 8

/-! ## Opcode Table -/

/-- One row: data, not code (R100, R101). -/
structure Row where
  expected : Word
  mask : Word
  format : Format
  op : Op
  deriving DecidableEq, Repr

/-- The 35 rows in table order (R76). -/
def opcodeTable : List Row := [
  ⟨0x00E0, 0xFFFF, .z, .clearScreen⟩,
  ⟨0x00EE, 0xFFFF, .z, .ret⟩,
  ⟨0x0000, 0xF000, .a, .sys⟩,
  ⟨0x1000, 0xF000, .a, .jump⟩,
  ⟨0x2000, 0xF000, .a, .call⟩,
  ⟨0x3000, 0xF000, .xk, .skipEqualByte⟩,
  ⟨0x4000, 0xF000, .xk, .skipNotEqualByte⟩,
  ⟨0x5000, 0xF00F, .xy, .skipEqualRegister⟩,
  ⟨0x6000, 0xF000, .xk, .loadByte⟩,
  ⟨0x7000, 0xF000, .xk, .addByte⟩,
  ⟨0x8000, 0xF00F, .xy, .loadRegister⟩,
  ⟨0x8001, 0xF00F, .xy, .orRegister⟩,
  ⟨0x8002, 0xF00F, .xy, .andRegister⟩,
  ⟨0x8003, 0xF00F, .xy, .xorRegister⟩,
  ⟨0x8004, 0xF00F, .xy, .addRegister⟩,
  ⟨0x8005, 0xF00F, .xy, .subRegister⟩,
  ⟨0x8006, 0xF00F, .xy, .shiftRight⟩,
  ⟨0x8007, 0xF00F, .xy, .subNRegister⟩,
  ⟨0x800E, 0xF00F, .xy, .shiftLeft⟩,
  ⟨0x9000, 0xF00F, .xy, .skipNotEqualRegister⟩,
  ⟨0xA000, 0xF000, .a, .loadIndex⟩,
  ⟨0xB000, 0xF000, .a, .jumpOffset⟩,
  ⟨0xC000, 0xF000, .xk, .random⟩,
  ⟨0xD000, 0xF000, .xyn, .displaySprite⟩,
  ⟨0xE09E, 0xF0FF, .x, .skipKeyPress⟩,
  ⟨0xE0A1, 0xF0FF, .x, .skipKeyNotPress⟩,
  ⟨0xF007, 0xF0FF, .x, .loadFromDelay⟩,
  ⟨0xF00A, 0xF0FF, .x, .loadKeyPress⟩,
  ⟨0xF015, 0xF0FF, .x, .loadDelay⟩,
  ⟨0xF018, 0xF0FF, .x, .loadSound⟩,
  ⟨0xF01E, 0xF0FF, .x, .addIndex⟩,
  ⟨0xF029, 0xF0FF, .x, .loadFont⟩,
  ⟨0xF033, 0xF0FF, .x, .storeBcd⟩,
  ⟨0xF055, 0xF0FF, .x, .storeRegisters⟩,
  ⟨0xF065, 0xF0FF, .x, .loadRegisters⟩]

/-- The match predicate: `(w & mask) == expected` (R103). -/
def Row.hit (r : Row) (w : Word) : Bool := (w &&& r.mask) == r.expected

/-- The first row that matches (R104). -/
def firstRow (w : Word) : Option Row := opcodeTable.find? (·.hit w)

/-- `first(w)`: the index of the first row that matches (R104). -/
def firstIndex (w : Word) : Option Nat := opcodeTable.findIdx? (·.hit w)

/-! ## Decoder -/

/-- The operands a format extracts from a word (R75, R106). -/
def Format.operands (f : Format) (w : Word) : Operands :=
  match f with
  | .z => {}
  | .a => { nnn := f0FFF w }
  | .xk => { x := f0F00 w, kk := f00FF w }
  | .xy => { x := f0F00 w, y := f00F0 w }
  | .xyn => { x := f0F00 w, y := f00F0 w, n := f000F w }
  | .x => { x := f0F00 w }

/-- The instruction of a row's variant with its operands (R106). -/
def Op.build (op : Op) (o : Operands) : Instr :=
  match op with
  | .clearScreen => .clearScreen
  | .ret => .ret
  | .sys => .sys o.nnn
  | .jump => .jump o.nnn
  | .call => .call o.nnn
  | .skipEqualByte => .skipEqualByte o.x o.kk
  | .skipNotEqualByte => .skipNotEqualByte o.x o.kk
  | .skipEqualRegister => .skipEqualRegister o.x o.y
  | .loadByte => .loadByte o.x o.kk
  | .addByte => .addByte o.x o.kk
  | .loadRegister => .loadRegister o.x o.y
  | .orRegister => .orRegister o.x o.y
  | .andRegister => .andRegister o.x o.y
  | .xorRegister => .xorRegister o.x o.y
  | .addRegister => .addRegister o.x o.y
  | .subRegister => .subRegister o.x o.y
  | .shiftRight => .shiftRight o.x o.y
  | .subNRegister => .subNRegister o.x o.y
  | .shiftLeft => .shiftLeft o.x o.y
  | .skipNotEqualRegister => .skipNotEqualRegister o.x o.y
  | .loadIndex => .loadIndex o.nnn
  | .jumpOffset => .jumpOffset o.nnn
  | .random => .random o.x o.kk
  | .displaySprite => .displaySprite o.x o.y o.n
  | .skipKeyPress => .skipKeyPress o.x
  | .skipKeyNotPress => .skipKeyNotPress o.x
  | .loadFromDelay => .loadFromDelay o.x
  | .loadKeyPress => .loadKeyPress o.x
  | .loadDelay => .loadDelay o.x
  | .loadSound => .loadSound o.x
  | .addIndex => .addIndex o.x
  | .loadFont => .loadFont o.x
  | .storeBcd => .storeBcd o.x
  | .storeRegisters => .storeRegisters o.x
  | .loadRegisters => .loadRegisters o.x

/-- `build_i(w)` (R106). -/
def Row.build (r : Row) (w : Word) : Instr := r.op.build (r.format.operands w)

/-- The Decoder's three outcomes (R105; conflict C3). -/
inductive DecodeOutcome where
  | noOp
  | decoded (i : Instr)
  | unknownOpcode (w : Word)
  deriving DecidableEq, Repr

/-- `decode(w)`: total, a function of the word alone (R107, R108, R109). -/
def decode (w : Word) : DecodeOutcome :=
  if w = 0 then .noOp
  else
    match firstRow w with
    | some r => .decoded (r.build w)
    | none => .unknownOpcode w

/-- What the decoder makes of a byte stream: the word of the first two bytes (R52, R70) and the rest, or too few bytes. -/
inductive BytesOutcome where
  | truncated
  | word (o : DecodeOutcome) (rest : List Byte)
  deriving DecidableEq, Repr

/-- The 16-bit big-endian word of two bytes: `high_byte << 8 | low_byte` (R52). -/
def wordOfBytes (hi lo : Byte) : Word := hi ++ lo

/-- Decode the first instruction of any byte stream (R52, R70, R107). -/
def decodeBytes : List Byte → BytesOutcome
  | hi :: lo :: rest => .word (decode (wordOfBytes hi lo)) rest
  | _ => .truncated

/-! ## Dispatch mux -/

/-- The ports of the decoder and dispatch mux (R112). -/
structure Ports where
  outcome : BitVec 2
  sel : BitVec 6
  dispatch : BitVec 35
  opNnn : BitVec 12
  opX : BitVec 4
  opY : BitVec 4
  opKk : BitVec 8
  opN : BitVec 4
  errWord : BitVec 16
  deriving DecidableEq, Repr

/-- Every port at zero. -/
def Ports.zero : Ports := ⟨0, 0, 0, 0, 0, 0, 0, 0, 0⟩

/-- The operand fields that reach the ports for the selected row (R112). -/
def selectedOperands (w : Word) : Operands :=
  match firstRow w with
  | some r => r.format.operands w
  | none => {}

/-- The port values, combinational in `w` (R112, R113). -/
def ports (w : Word) : Ports :=
  if w = 0 then Ports.zero
  else
    match firstIndex w with
    | some k =>
      let o := selectedOperands w
      { outcome := 1, sel := BitVec.ofNat 6 k, dispatch := 1 <<< k, opNnn := o.nnn, opX := o.x, opY := o.y, opKk := o.kk,
        opN := o.n, errWord := 0 }
    | none => { Ports.zero with outcome := 2, errWord := w }

/-! ## Encoder -/

/-- The variant of an instruction. -/
def Instr.op : Instr → Op
  | .clearScreen => .clearScreen
  | .ret => .ret
  | .sys _ => .sys
  | .jump _ => .jump
  | .call _ => .call
  | .skipEqualByte _ _ => .skipEqualByte
  | .skipNotEqualByte _ _ => .skipNotEqualByte
  | .skipEqualRegister _ _ => .skipEqualRegister
  | .loadByte _ _ => .loadByte
  | .addByte _ _ => .addByte
  | .loadRegister _ _ => .loadRegister
  | .orRegister _ _ => .orRegister
  | .andRegister _ _ => .andRegister
  | .xorRegister _ _ => .xorRegister
  | .addRegister _ _ => .addRegister
  | .subRegister _ _ => .subRegister
  | .shiftRight _ _ => .shiftRight
  | .subNRegister _ _ => .subNRegister
  | .shiftLeft _ _ => .shiftLeft
  | .skipNotEqualRegister _ _ => .skipNotEqualRegister
  | .loadIndex _ => .loadIndex
  | .jumpOffset _ => .jumpOffset
  | .random _ _ => .random
  | .displaySprite _ _ _ => .displaySprite
  | .skipKeyPress _ => .skipKeyPress
  | .skipKeyNotPress _ => .skipKeyNotPress
  | .loadFromDelay _ => .loadFromDelay
  | .loadKeyPress _ => .loadKeyPress
  | .loadDelay _ => .loadDelay
  | .loadSound _ => .loadSound
  | .addIndex _ => .addIndex
  | .loadFont _ => .loadFont
  | .storeBcd _ => .storeBcd
  | .storeRegisters _ => .storeRegisters
  | .loadRegisters _ => .loadRegisters

/-- The operands of an instruction, zero where its variant carries none (R87). -/
def Instr.operands : Instr → Operands
  | .clearScreen => {}
  | .ret => {}
  | .sys nnn => { nnn := nnn }
  | .jump nnn => { nnn := nnn }
  | .call nnn => { nnn := nnn }
  | .skipEqualByte x kk => { x := x, kk := kk }
  | .skipNotEqualByte x kk => { x := x, kk := kk }
  | .skipEqualRegister x y => { x := x, y := y }
  | .loadByte x kk => { x := x, kk := kk }
  | .addByte x kk => { x := x, kk := kk }
  | .loadRegister x y => { x := x, y := y }
  | .orRegister x y => { x := x, y := y }
  | .andRegister x y => { x := x, y := y }
  | .xorRegister x y => { x := x, y := y }
  | .addRegister x y => { x := x, y := y }
  | .subRegister x y => { x := x, y := y }
  | .shiftRight x y => { x := x, y := y }
  | .subNRegister x y => { x := x, y := y }
  | .shiftLeft x y => { x := x, y := y }
  | .skipNotEqualRegister x y => { x := x, y := y }
  | .loadIndex nnn => { nnn := nnn }
  | .jumpOffset nnn => { nnn := nnn }
  | .random x kk => { x := x, kk := kk }
  | .displaySprite x y n => { x := x, y := y, n := n }
  | .skipKeyPress x => { x := x }
  | .skipKeyNotPress x => { x := x }
  | .loadFromDelay x => { x := x }
  | .loadKeyPress x => { x := x }
  | .loadDelay x => { x := x }
  | .loadSound x => { x := x }
  | .addIndex x => { x := x }
  | .loadFont x => { x := x }
  | .storeBcd x => { x := x }
  | .storeRegisters x => { x := x }
  | .loadRegisters x => { x := x }

/-- The row of a variant: each variant stands in exactly one row (R102 (b)). -/
def Op.row (op : Op) : Option Row := opcodeTable.find? (·.op == op)

/-- `expected_r` of a variant's row (R87). -/
def Op.expected (op : Op) : Word :=
  match op.row with
  | some r => r.expected
  | none => 0

/-- `(x << 8) | (y << 4) | n | kk | nnn` (R87). -/
def Operands.bits (o : Operands) : Word :=
  (o.x.setWidth 16 <<< 8) ||| (o.y.setWidth 16 <<< 4) ||| o.n.setWidth 16 ||| o.kk.setWidth 16 ||| o.nnn.setWidth 16

/-- `encode(ins)` (R87). -/
def encode (i : Instr) : Word := i.op.expected ||| i.operands.bits

/-- The bytes of an instruction as memory holds them, the high byte at the lower address (R52). -/
def encodeBytes (i : Instr) : List Byte :=
  [(encode i).extractLsb' 8 8, (encode i).extractLsb' 0 8]

/-! ## The host's numbering of the table's words -/

/-- The two bytes of a table word as memory holds them: one 16-bit word, the high byte first (R52). -/
def tableWordBytes (w : Nat) : List Byte :=
  [(BitVec.ofNat 16 w).extractLsb' 8 8, (BitVec.ofNat 16 w).extractLsb' 0 8]

/-- The instruction the decoder reads from a table word of at most 16 bits (every instruction is one 16-bit word, R70). -/
def decodeTableWord (nbits w : Nat) : Option Instr :=
  if nbits ≤ 16 then
    match decodeBytes (tableWordBytes w) with
    | .word (.decoded i) _ => some i
    | _ => none
  else none

end Sys2Proof
end

