-- ==== Sys2Proof/Config.lean ====
section
/-! DEFINITION. What the spec leaves open: the named parameters of `92_eei_decisions.md` (R10), and the free values, opaque
constants without a body. -/

namespace Sys2Proof

/-- `UNKNOWN_POLICY`: what the Execution Engine does after `UnknownOpcode` (`60_exceptions.md` R242, D12). -/
inductive UnknownPolicy where
  | halt | skip | logAndContinue
  deriving DecidableEq, Repr

/-- What the Execution Engine does after a stack or memory error or an unsupported `SYS`: the spec leaves it to its policy and
recommends `halt` (R244, R245, U4, U5). DESIGN CHOICE, safe: log entry 7. -/
inductive ErrorPolicy where
  | halt | goOn
  deriving DecidableEq, Repr

/-- `ROM_OVERSIZE_POLICY` (`20_memory.md` R59, D16). -/
inductive RomPolicy where
  | reject | truncate
  deriving DecidableEq, Repr

/-- `SYS_POLICY` (`43_flow.md` R145, D20). -/
inductive SysPolicy where
  | ignore | fault
  deriving DecidableEq, Repr

/-- `KEY_INDEX_POLICY` for a key number above 15 (`44_skips.md` R169, D26, U7). `anyAnswer` is the model's own fourth value: the
answer is a free Boolean, so the instruction runs and no claim rests on the answer. DESIGN CHOICE, unsafe where the machine faults: log entry 14. -/
inductive KeyIndexPolicy where
  | refuse | maskLowNibble | notPressed | anyAnswer
  deriving DecidableEq, Repr

/-- The named arguments of the model (`00_scope.md` R10; `92_eei_decisions.md`). `JUMPOFFSET_REGISTER` is fixed to `V0` (D27)
and so is no field. -/
structure Params where
  unknownPolicy : UnknownPolicy
  errorPolicy : ErrorPolicy
  romOversizePolicy : RomPolicy
  sysPolicy : SysPolicy
  logicResetsVF : Bool
  shiftUsesVy : Bool
  loadstoreIncrementsI : Bool
  addindexSetsVF : Bool
  fontBase : Word
  keyIndexPolicy : KeyIndexPolicy
  allowLowFetch : Bool
  deriving DecidableEq, Repr

/-- FREE VALUE: timer ticks the driver applies before the step that draws it (R256, U14; log entry 4). -/
opaque Config.ticks : Nat → Nat

/-- FREE VALUE: the byte `Random` draws (D32, U10; log entry 5). -/
opaque Config.randomByte : Nat → Byte

/-- FREE VALUE: the answer of `Keyboard.is_down(k)` (R257; log entry 5). -/
opaque Config.keyDown : Nat → BitVec 4 → Bool

/-- FREE VALUE: the answer for a key number above 15 under `anyAnswer` (U7; log entry 14). -/
opaque Config.keyDownBeyond : Nat → Byte → Bool

/-- FREE VALUE: the answer of `Keyboard.pressed()` (R257, U9; log entry 5). -/
opaque Config.keyPressed : Nat → Option (BitVec 4)

/-- FREE VALUE: the renderer's collision answer (R258, U11; log entry 6). -/
opaque Config.collision : Nat → Bool

/-- FREE VALUE: `FONT_BASE`, for which the spec gives no default (D25, U15; log entry 13). -/
opaque Config.fontBase : Word

/-- FREE VALUE: `I` after `LoadFont` of a value above 15, for which the spec states no result (U8; log entry 15). -/
opaque Config.fontAddress : Nat → Byte → Word

end Sys2Proof
end

