-- ==== Sys2Proof/Machine/Parameters.lean ====
section
/-! DEFINITION. The values the model's named arguments have at reset (`92_eei_decisions.md` D8, D12, D16, D20 to D26). -/

namespace Sys2Proof.Machine

/-- `UNKNOWN_POLICY`: recommended `halt` (D12). -/
def defaultUnknownPolicy : UnknownPolicy := .halt

/-- After a stack or memory error: the recommended end of the run (R244, U4, U5). DESIGN CHOICE, safe: log entry 7. -/
def defaultErrorPolicy : ErrorPolicy := .halt

/-- `ROM_OVERSIZE_POLICY`: reject (D16). -/
def defaultRomOversizePolicy : RomPolicy := .reject

/-- `SYS_POLICY`: default `ignore` (D20). -/
def defaultSysPolicy : SysPolicy := .ignore

/-- `LOGIC_RESETS_VF`: default `false` (D21). -/
def defaultLogicResetsVF : Bool := false

/-- `SHIFT_USES_VY`: default `false` (D22). -/
def defaultShiftUsesVy : Bool := false

/-- `LOADSTORE_INCREMENTS_I`: default `false` (D23). -/
def defaultLoadstoreIncrementsI : Bool := false

/-- `ADDINDEX_SETS_VF`: default `false` (D24). -/
def defaultAddindexSetsVF : Bool := false

/-- `FONT_BASE`: no default (D25), a free value. DESIGN CHOICE, safe: log entry 13. -/
def defaultFontBase : Word := Config.fontBase

/-- `KEY_INDEX_POLICY`: the model's `anyAnswer` (D26 recommends `refuse`). DESIGN CHOICE, unsafe where the machine faults: log entry 14. -/
def defaultKeyIndexPolicy : KeyIndexPolicy := .anyAnswer

/-- `ALLOW_LOW_FETCH`: default `false` (R124, D8). -/
def defaultAllowLowFetch : Bool := false

/-- The arguments at reset. -/
def defaultParams : Params where
  unknownPolicy := defaultUnknownPolicy
  errorPolicy := defaultErrorPolicy
  romOversizePolicy := defaultRomOversizePolicy
  sysPolicy := defaultSysPolicy
  logicResetsVF := defaultLogicResetsVF
  shiftUsesVy := defaultShiftUsesVy
  loadstoreIncrementsI := defaultLoadstoreIncrementsI
  addindexSetsVF := defaultAddindexSetsVF
  fontBase := defaultFontBase
  keyIndexPolicy := defaultKeyIndexPolicy
  allowLowFetch := defaultAllowLowFetch

end Sys2Proof.Machine
end

