-- ==== Sys2Proof/Machine/State.lean ====
section
/-! DEFINITION. The Machine State (`10_state.md` R20), the model's own fields beside it, the reset state (R42), and the reasons a
step can stop. -/

namespace Sys2Proof.Machine

/-- `MEM` as (address, byte) pairs, addresses strictly rising, no entry equal to the byte an unlisted address reads as. -/
abbrev Memory := List Host.Cell

/-- The errors the Execution Engine reports (`60_exceptions.md` R241). -/
inductive ExecError where
  /-- A push with `SP == 16` (R30, R244). -/
  | stackOverflow
  /-- A pop with `SP == 0` (R31, R245). -/
  | stackUnderflow
  /-- A data access at an address above `0xFFF`; effective addresses are mathematical integers (R36, R37, R225, R247). DEDUCED, unsafe:
  log entry 16. -/
  | memOutOfBounds (addr : Nat)
  /-- A `SYS` reported as unsupported under `SYS_POLICY = fault` (R145). DESIGN CHOICE, unsafe: log entry 11. -/
  | sysUnsupported (nnn : Address)
  deriving DecidableEq, Repr

/-- The discriminated result of the last step (R240, R241, R248). The fetch's error and the decoder's stand apart (R129). -/
inductive Status where
  | ok
  | noOp
  | unknownOpcode (w : Word)
  | fetchOutOfBounds (pc : Word)
  | execError (e : ExecError)
  deriving DecidableEq, Repr

/-- A call the Execution Engine makes to the renderer (R258, D34). -/
inductive RendererCall where
  | clear
  | draw (col row : Byte) (rows : List Byte)
  deriving DecidableEq, Repr

/-- The Machine State of R20 (`mem` to `halt`) and the model's own fields. -/
structure State where
  /-- `MEM` (R38). -/
  mem : Memory
  /-- `V0` to `VF` (R21). -/
  v : Vector Byte 16
  /-- `I` (R25). -/
  i : Word
  /-- `PC` (R27). -/
  pc : Word
  /-- `STACK[0]` to `STACK[15]` (R29). -/
  stack : Vector Word 16
  /-- `SP`, the number of live entries, 0 to 16 (R29). -/
  sp : Fin 17
  /-- `DT` (R33). -/
  dt : Byte
  /-- `ST` (R33). -/
  st : Byte
  /-- `HALT` (R35). -/
  halt : Bool
  /-- The last step's result, as reported to the environment (R240, R241). DESIGN CHOICE, unsafe: log entry 8. -/
  status : Status
  /-- The Execution Engine has ended the run by its policy (R130, R242, R244). DESIGN CHOICE, safe: log entry 7. -/
  stopped : Bool
  /-- Illegal words logged under `log_and_continue`, newest first (R242). DESIGN CHOICE, unsafe: log entry 8. -/
  log : List Word
  /-- Calls made to the renderer, newest first (R258). DESIGN CHOICE, unsafe: log entry 9. -/
  rendered : List RendererCall
  /-- Free values drawn so far: which value of an opaque constant of `Config` comes next. DESIGN CHOICE, safe: log entry 3. -/
  draws : Nat
  /-- The named arguments of the model (R10). DESIGN CHOICE, unsafe from reset: log entry 2. -/
  params : Params
  deriving DecidableEq, Repr

/-- The machine right after reset with no ROM loaded (R42, R271; the loader is `Loader.lean`). -/
def State.reset : State where
  mem := []
  v := Vector.replicate 16 0
  i := 0
  pc := 0x0200
  stack := Vector.replicate 16 0
  sp := 0
  dt := 0
  st := 0
  halt := false
  status := .ok
  stopped := false
  log := []
  rendered := []
  draws := 0
  params := defaultParams

/-- Why no step exists. -/
inductive Fault where
  /-- Raised by the sequencer when `HALT == 1` (R128). Safe: the hardware takes no step either; only the tick driver goes on.
  DEDUCED: log entry 17. -/
  | halted
  /-- Raised by the sequencer after the Execution Engine has ended the run by its policy (R130, R242, R244). Safe: no claim is made
  about what an environment does after it. -/
  | runEnded
  deriving DecidableEq, Repr

/-- What the model makes no claim about. -/
inductive Refusal where
  /-- Raised by `exec` for an instruction without a meaning. Safe. -/
  | notModelled (mnemonic : String)
  /-- Raised by the sequencer for a fetch below `0x200` under `ALLOW_LOW_FETCH = false` (R124, U2, D8). Safe: log entry 10. -/
  | lowFetch (pc : Word)
  /-- Raised by `SkipKeyPress`, `SkipKeyNotPress` for a key number above 15 under `KEY_INDEX_POLICY = refuse` (U7). Safe. -/
  | keyIndex (k : Byte)
  /-- Raised by the loader for an image of more than 3584 bytes under `ROM_OVERSIZE_POLICY = reject` (R59, D16). Safe. -/
  | romTooLarge (length : Nat)
  deriving DecidableEq, Repr

/-- The outcome of a meaning or of a step. -/
abbrev Out := Host.Outcome State Fault Refusal

end Sys2Proof.Machine
end

