-- ==== Sys2Proof/Machine/Ops.lean ====
section
/-! DEFINITION. The container's access primitives (`10_state.md` sections 2 to 8), the raising of an error (`60_exceptions.md` R240),
the timer tick (R256) and the free values' counter. -/

namespace Sys2Proof.Machine

/-! ## Memory cells -/

/-- What a cell nothing has written reads as: the reset contents (R42). -/
def Memory.unlisted : Byte := 0

/-- `MEM[a]` (R38). -/
def Memory.read : Memory → Nat → Byte
  | [], _ => Memory.unlisted
  | (b, u) :: rest, a => if a = b then u else Memory.read rest a

/-- One cell in front of memory, unless it holds what an unlisted address reads as. -/
def Memory.consCell (a : Nat) (u : Byte) (m : Memory) : Memory :=
  if u = Memory.unlisted then m else (a, u) :: m

/-- `MEM[a] <- u`, keeping the canonical form (R37). -/
def Memory.write : Memory → Nat → Byte → Memory
  | [], a, u => Memory.consCell a u []
  | (b, w) :: rest, a, u =>
    if a < b then Memory.consCell a u ((b, w) :: rest)
    else if a = b then Memory.consCell a u rest
    else (b, w) :: Memory.write rest a u

/-- Write a list of bytes from `a` upward. -/
def Memory.writeAll : Memory → Nat → List Byte → Memory
  | m, _, [] => m
  | m, a, u :: us => Memory.writeAll (Memory.write m a u) (a + 1) us

/-- The canonical form from address `lo` up: addresses rising, all cells of `MEM` (R38), no unlisted byte. -/
def Memory.wfFrom : Nat → Memory → Bool
  | _, [] => true
  | lo, (a, u) :: rest => decide (lo ≤ a) && decide (a ≤ 0xFFF) && decide (u ≠ Memory.unlisted) && Memory.wfFrom (a + 1) rest

/-- The canonical form of memory; every listed address is at most `0xFFF` (R38). -/
def Memory.wf (m : Memory) : Bool := Memory.wfFrom 0 m

/-! ## Registers -/

/-- `V[x]` (R22). -/
def State.getV (s : State) (x : Register) : Byte := s.v[x.toNat]'x.isLt

/-- `V[x] <- u` (R23). -/
def State.setV (s : State) (x : Register) (u : Byte) : State := { s with v := s.v.set x.toNat u x.isLt }

/-- `V[0xF] <- u` (R24). -/
def State.setVF (s : State) (u : Byte) : State := s.setV 0xF u

/-- `I <- a` (R25). -/
def State.setI (s : State) (a : Word) : State := { s with i := a }

/-- `pc <- target` (R27). -/
def State.setPc (s : State) (target : Word) : State := { s with pc := target }

/-- `DT <- u` (R33). -/
def State.setDt (s : State) (u : Byte) : State := { s with dt := u }

/-- `ST <- u` (R33). -/
def State.setSt (s : State) (u : Byte) : State := { s with st := u }

/-! ## Access primitives that can raise -/

/-- `MemRead(addr, 1)` (R36). -/
def State.memRead1 (s : State) (addr : Nat) : Except ExecError Byte :=
  if addr > 0xFFF then .error (.memOutOfBounds addr) else .ok (s.mem.read addr)

/-- `MemRead(addr, 2)`, the byte at the lower address more significant (R36, R52). -/
def State.memRead2 (s : State) (addr : Nat) : Except ExecError Word :=
  if addr + 1 > 0xFFF then .error (.memOutOfBounds addr) else .ok (s.mem.read addr ++ s.mem.read (addr + 1))

/-- `MEM[addr] <- u`, no other item changes. -/
def State.setMem (s : State) (addr : Nat) (u : Byte) : State := { s with mem := s.mem.write addr u }

/-- `MemWrite(addr, 1, u)` (R37). -/
def State.memWrite (s : State) (addr : Nat) (u : Byte) : Except ExecError State :=
  if addr > 0xFFF then .error (.memOutOfBounds addr) else .ok (s.setMem addr u)

/-- `StackPush(a)`: `STACK[SP] <- a; SP <- SP + 1`, or `StackOverflow` (R30). -/
def State.stackPush (s : State) (a : Word) : Except ExecError State :=
  if h : s.sp.val < 16 then
    .ok { s with stack := s.stack.set s.sp.val a h, sp := ⟨s.sp.val + 1, by omega⟩ }
  else .error .stackOverflow

/-- `StackPop()`: `SP <- SP - 1`, answering `STACK[SP]`, which is not erased, or `StackUnderflow` (R31). -/
def State.stackPop (s : State) : Except ExecError (Word × State) :=
  if h : s.sp.val = 0 then .error .stackUnderflow
  else .ok (s.stack[s.sp.val - 1]'(by have := s.sp.isLt; omega), { s with sp := ⟨s.sp.val - 1, by have := s.sp.isLt; omega⟩ })

/-! ## Raising an error -/

/-- `raise E(info)`: the step ends with the result handed to the environment; no handler, no saved state (R240, R249). `ends` says
whether the receiver's policy ends the run (R130). There is nothing to restore: the run goes on by its next step (R251). -/
def State.raise (s : State) (result : Status) (ends : Bool) : State :=
  { s with status := result, stopped := s.stopped || ends }

/-- A stack or memory error, or an unsupported `SYS` (R244, R245, R247, R145). -/
def State.raiseExec (s : State) (e : ExecError) : State :=
  s.raise (.execError e) (s.params.errorPolicy == .halt)

/-- `UnknownOpcode(w)` under `UNKNOWN_POLICY` (R242). -/
def State.raiseUnknown (s : State) (w : Word) : State :=
  match s.params.unknownPolicy with
  | .halt => s.raise (.unknownOpcode w) true
  | .skip => s.raise (.unknownOpcode w) false
  | .logAndContinue => { s.raise (.unknownOpcode w) false with log := w :: s.log }

/-- `FetchOutOfBounds`: `HALT <- 1`, `PC` kept (R122, R243). -/
def State.raiseFetch (s : State) : State :=
  { s.raise (.fetchOutOfBounds s.pc) false with halt := true }

/-- The end of a meaning that can raise: its state, or the error raised in the state the fetch left (R249, D36). -/
def State.finish (s : State) (r : Except ExecError State) : Out :=
  .next (match r with
    | .ok t => t
    | .error e => s.raiseExec e)

/-- The numeric code of a result on a status port; an unsupported `SYS` has none (R241, D18). -/
def Status.code : Status → Option Nat
  | .ok => some 0
  | .noOp => some 1
  | .unknownOpcode _ => some 2
  | .fetchOutOfBounds _ => some 3
  | .execError .stackOverflow => some 4
  | .execError .stackUnderflow => some 5
  | .execError (.memOutOfBounds _) => some 6
  | .execError (.sysUnsupported _) => none

/-! ## Collaborators -/

/-- The next free value has been taken (log entry 3). -/
def State.draw (s : State) : State := { s with draws := s.draws + 1 }

/-- A call to the renderer (R258). -/
def State.callRenderer (s : State) (c : RendererCall) : State := { s with rendered := c :: s.rendered }

/-- One decrement of a timer, which stops at zero (R256). -/
def timerDown (u : Byte) : Byte := if 0 < u.toNat then u - 1 else u

/-- One tick of the driver (R256). It runs whether or not `HALT` is set. -/
def State.tick (s : State) : State := { s with dt := timerDown s.dt, st := timerDown s.st }

/-- A timer after `n` ticks. -/
def timerAfter (n : Nat) (u : Byte) : Byte := BitVec.ofNat 8 (u.toNat - n)

/-- `n` ticks in a row, in closed form. -/
def State.tickMany (n : Nat) (s : State) : State := { s with dt := timerAfter n s.dt, st := timerAfter n s.st }

/-- The ticks the driver applies before a step: a free number (R256, U14; log entry 4). -/
def State.ticksDue (s : State) : Nat := Config.ticks s.draws

/-- What happens between two steps: the driver's ticks (R256). -/
def State.elapse (s : State) : State := (s.tickMany s.ticksDue).draw

end Sys2Proof.Machine
end

