-- ==== Sys2Proof/Machine/Fetch.lean ====
section
/-! DEFINITION. The Fetch Loop (`42_fetch_loop.md`). -/

namespace Sys2Proof.Machine

/-- The result of one fetch: the two error channels stand at different levels (R120, R129). -/
inductive FetchResult where
  | fatal (pc : Word)
  | fetched (o : DecodeOutcome)
  deriving DecidableEq, Repr

/-- The word at `PC`: `MEM[PC] ++ MEM[PC+1]`; the bound check made first keeps both reads in `MEM` (R121, R123). -/
def State.fetchWord (s : State) : Word := wordOfBytes (s.mem.read s.pc.toNat) (s.mem.read (s.pc.toNat + 1))

/-- The bound check: the fetch proceeds iff `PC <= 0xFFE` (R121). -/
def State.fetchInBounds (s : State) : Bool := decide (s.pc.toNat ≤ 0xFFE)

/-- The result code of a fetched outcome before execution: `NoOp` is no error, a decoded instruction is code 0 (R241). -/
def fetchedStatus : DecodeOutcome → Status
  | .noOp => .noOp
  | .decoded _ => .ok
  | .unknownOpcode w => .unknownOpcode w

/-- `pc <- pc + 2`, with the outcome on the status port (R123). -/
def State.advance (s : State) (o : DecodeOutcome) : State := { s with pc := s.pc + 2, status := fetchedStatus o }

/-- `fetch_step()` after the `HALT` test (R120, R122, R123). -/
def State.fetchStep (s : State) : FetchResult × State :=
  if s.fetchInBounds then (.fetched (decode s.fetchWord), s.advance (decode s.fetchWord))
  else (.fatal s.pc, s.raiseFetch)

/-- A fetch below `0x200` with `ALLOW_LOW_FETCH = false`: the model makes no claim (R124, U2), so the step is
refused. DESIGN CHOICE in its form, safe: log entry 10. -/
def State.refusesLowFetch (s : State) : Bool := decide (s.pc.toNat < 0x200) && !s.params.allowLowFetch

end Sys2Proof.Machine
end

