-- ==== Sys2Proof/Machine/Loader.lean ====
section
/-! DEFINITION. The loader (`20_memory.md` R59; `70_reset_and_hazards.md` R271, R274) and the placing of one word for a fetch. -/

namespace Sys2Proof.Machine

/-- `PROGRAM_BASE` (`00_scope.md` R8). -/
def programBase : Nat := 0x200

/-- `MAX_ROM` (R8, R59). -/
def maxRom : Nat := 3584

/-- Bytes copied verbatim into memory from `a` upward. -/
def State.place (s : State) (a : Nat) (us : List Byte) : State := { s with mem := s.mem.writeAll a us }

/-- The ROM image copied to `0x200`; a larger one is rejected or truncated (R59, R271, D16). -/
def State.loadRom (s : State) (rom : List Byte) : Out :=
  if rom.length ≤ maxRom then .next (s.place programBase rom)
  else
    match s.params.romOversizePolicy with
    | .reject => .refused (.romTooLarge rom.length)
    | .truncate => .next (s.place programBase (rom.take maxRom))

/-- Creation of a Machine State with the given arguments and ROM image: reset, then the loader (R270, R271). DESIGN CHOICE, safe: log entry 12. -/
def boot (p : Params) (rom : List Byte) : Out := State.loadRom { State.reset with params := p } rom

/-- The conventional font, digit `d` at offset `5 * d` (R217). -/
def conventionalFont : List Byte :=
  [0xF0, 0x90, 0x90, 0x90, 0xF0, 0x20, 0x60, 0x20, 0x20, 0x70, 0xF0, 0x10, 0xF0, 0x80, 0xF0, 0xF0, 0x10, 0xF0, 0x10, 0xF0]
  ++ [0x90, 0x90, 0xF0, 0x10, 0x10, 0xF0, 0x80, 0xF0, 0x10, 0xF0, 0xF0, 0x80, 0xF0, 0x90, 0xF0, 0xF0, 0x10, 0x20, 0x40, 0x40]
  ++ [0xF0, 0x90, 0xF0, 0x90, 0xF0, 0xF0, 0x90, 0xF0, 0x10, 0xF0, 0xF0, 0x90, 0xF0, 0x90, 0x90, 0xE0, 0x90, 0xE0, 0x90, 0xE0]
  ++ [0xF0, 0x80, 0x80, 0x80, 0xF0, 0xE0, 0x90, 0x90, 0x90, 0xE0, 0xF0, 0x80, 0xF0, 0x80, 0xF0, 0xF0, 0x80, 0xF0, 0x80, 0x80]

/-- The environment installs the font at `FONT_BASE` before the first step; the part above `0xFFF` is not installed (R274).
DESIGN CHOICE, safe: log entry 13. -/
def State.installFont (s : State) : State :=
  s.place s.params.fontBase.toNat (conventionalFont.take (0x1000 - s.params.fontBase.toNat))

/-- The two bytes of one table word at the address the next fetch reads, when that fetch is within bounds (R121). -/
def State.placeWord (s : State) (w : Nat) : State :=
  if s.fetchInBounds then s.place s.pc.toNat (tableWordBytes w) else s

end Sys2Proof.Machine
end

