-- ==== Sys2Proof/Machine/Flags.lean ====
section
/-! DEFINITION. The values written to `VF` as a flag (`45_alu.md` R204; `46_index_memory_draw.md` R213, R215). -/

namespace Sys2Proof.Machine

/-- A flag bit in an 8-bit register: `0x01` or `0x00`. -/
def flag (b : Bool) : Byte := if b then 1 else 0

/-- Carry of an addition: the mathematical sum is above 255 (R193, R204). -/
def carryFlag (a b : Byte) : Byte := flag (decide (a.toNat + b.toNat > 255))

/-- "No borrow" of `a - b`: `a >= b` (R195, R199, R204, D31). -/
def noBorrowFlag (a b : Byte) : Byte := flag (decide (a.toNat ≥ b.toNat))

/-- The bit a right shift shifts out: old bit 0 (R197). -/
def lowBitFlag (src : Byte) : Byte := flag (src.getLsbD 0)

/-- The bit a left shift shifts out: old bit 7 (R201). -/
def highBitFlag (src : Byte) : Byte := flag (src.getLsbD 7)

/-- `I + V[x] > 0xFFF`, on the values before the write (R215). -/
def indexFlag (i : Word) (u : Byte) : Byte := flag (decide (i.toNat + u.toNat > 0xFFF))

/-- `if LOGIC_RESETS_VF then V[0xF] <- 0x00` (R187, R189, R191). -/
def State.logicVF (s : State) : State := if s.params.logicResetsVF then s.setVF 0 else s

/-- `VF` of `AddIndex`, written only under `ADDINDEX_SETS_VF` (R215). -/
def State.indexVF (s : State) (u : Byte) : State := if s.params.addindexSetsVF then s.setVF u else s

end Sys2Proof.Machine
end

