-- ==== Sys2Proof/Machine/Operands.lean ====
section
/-! DEFINITION. Operand forms: register-indirect access through `I` (`46_index_memory_draw.md` R225), the register ranges of the block
load and store (R221, R223), the shifts' source (`45_alu.md` R197), jump targets, the skip (`44_skips.md`), the keyboard's answer
(R169). -/

namespace Sys2Proof.Machine

/-- The effective address of byte `k`: `I + k`, not reduced (R225). -/
def State.ea (s : State) (k : Nat) : Nat := s.i.toNat + k

/-- `n` one-byte reads from `a` upward; the first address above `0xFFF` raises (R36, R225). -/
def State.loadBytes (s : State) (a : Nat) : Nat → Except ExecError (List Byte)
  | 0 => .ok []
  | n + 1 =>
    match s.memRead1 a with
    | .error e => .error e
    | .ok u =>
      match State.loadBytes s (a + 1) n with
      | .error e => .error e
      | .ok us => .ok (u :: us)

/-- One-byte writes from `a` upward; the first address above `0xFFF` raises and no write is kept (R37, R225, D36). -/
def State.storeBytes (s : State) (a : Nat) : List Byte → Except ExecError State
  | [] => .ok s
  | u :: us =>
    match s.memWrite a u with
    | .error e => .error e
    | .ok t => State.storeBytes t (a + 1) us

/-- `V0` to `Vx`, in order: `x + 1` bytes (R221). -/
def State.firstRegisters (s : State) (x : Register) : List Byte :=
  (List.range (x.toNat + 1)).map fun k => s.getV (BitVec.ofNat 4 k)

/-- `V[k] <- u` for the bytes of a list, from register `k` upward (R223). -/
def State.setRegisters (s : State) (k : Nat) : List Byte → State
  | [] => s
  | u :: us => State.setRegisters (s.setV (BitVec.ofNat 4 k) u) (k + 1) us

/-- `if LOADSTORE_INCREMENTS_I then I <- (I + x + 1) mod 65536` (R221, R223). -/
def State.advanceI (s : State) (x : Register) : State :=
  s.setI (if s.params.loadstoreIncrementsI then s.i + x.setWidth 16 + 1 else s.i)

/-- The three decimal digits of a byte, hundreds first (R219). -/
def bcdDigits (u : Byte) : List Byte :=
  [BitVec.ofNat 8 (u.toNat / 100), BitVec.ofNat 8 (u.toNat / 10 % 10), BitVec.ofNat 8 (u.toNat % 10)]

/-- `src` of the shifts: `if SHIFT_USES_VY then V[y] else V[x]` (R197, R201). -/
def State.shiftSource (s : State) (x y : Register) : Byte :=
  if s.params.shiftUsesVy then s.getV y else s.getV x

/-- `zext_16` of an address operand (R147). -/
def target (nnn : Address) : Word := nnn.setWidth 16

/-- The register `JumpOffset` adds: fixed to `V0` (R151, D27). -/
def jumpOffsetRegister : Register := 0

/-- `pc <- pc + 2` when `c` holds (`44_skips.md`, head). -/
def State.skipIf (s : State) (c : Bool) : State := s.setPc (if c then s.pc + 2 else s.pc)

/-- The keyboard's answer for the key numbered `k`, by `KEY_INDEX_POLICY` above 15; `none` is the refusal (R169, R257, U7). -/
def State.keyAnswer (s : State) (k : Byte) : Option Bool :=
  if k.toNat ≤ 0xF then some (Config.keyDown s.draws (k.setWidth 4))
  else
    match s.params.keyIndexPolicy with
    | .refuse => none
    | .maskLowNibble => some (Config.keyDown s.draws (k.setWidth 4))
    | .notPressed => some false
    | .anyAnswer => some (Config.keyDownBeyond s.draws k)

/-- The answer of `Keyboard.pressed()` (R233, R257). -/
def State.keyPressed (s : State) : Option (BitVec 4) := Config.keyPressed s.draws

/-- The byte `Random` draws (R203, D32). -/
def State.randomByte (s : State) : Byte := Config.randomByte s.draws

/-- The renderer's collision answer (R213, R258). -/
def State.collision (s : State) : Bool := Config.collision s.draws

/-- `FONT_BASE + 5 * d` for a digit; above 15 the spec states no result and the value is free (R217, U8; log entry 15). -/
def State.fontAddress (s : State) (d : Byte) : Word :=
  if d.toNat ≤ 0xF then s.params.fontBase + 5 * d.setWidth 16 else Config.fontAddress s.draws d

end Sys2Proof.Machine
end

