-- ==== Sys2Proof/Machine/Alu.lean ====
section
/-! DEFINITION. Register loads and arithmetic, classes 6, 7, 8 and C (`45_alu.md`). Sources are read from the state before the
instruction, the result is written next, `VF` last (R204, D30). -/

namespace Sys2Proof.Machine

/-- `V[x] <- kk` (R181). -/
def execLoadByte (x : Register) (kk : Byte) (s : State) : Out := .next (s.setV x kk)

/-- `V[x] <- (V[x] + kk) mod 256`; no flag (R183). -/
def execAddByte (x : Register) (kk : Byte) (s : State) : Out := .next (s.setV x (s.getV x + kk))

/-- `V[x] <- V[y]` (R185). -/
def execLoadRegister (x y : Register) (s : State) : Out := .next (s.setV x (s.getV y))

/-- `V[x] <- V[x] | V[y]`, then `LOGIC_RESETS_VF` (R187). -/
def execOrRegister (x y : Register) (s : State) : Out := .next (s.setV x (s.getV x ||| s.getV y)).logicVF

/-- `V[x] <- V[x] & V[y]`, then `LOGIC_RESETS_VF` (R189). -/
def execAndRegister (x y : Register) (s : State) : Out := .next (s.setV x (s.getV x &&& s.getV y)).logicVF

/-- `V[x] <- V[x] ^ V[y]`, then `LOGIC_RESETS_VF` (R191). -/
def execXorRegister (x y : Register) (s : State) : Out := .next (s.setV x (s.getV x ^^^ s.getV y)).logicVF

/-- `V[x] <- (V[x] + V[y]) mod 256`, then `VF` = carry (R193). -/
def execAddRegister (x y : Register) (s : State) : Out :=
  .next ((s.setV x (s.getV x + s.getV y)).setVF (carryFlag (s.getV x) (s.getV y)))

/-- `V[x] <- (V[x] - V[y]) mod 256`, then `VF` = no borrow (R195). -/
def execSubRegister (x y : Register) (s : State) : Out :=
  .next ((s.setV x (s.getV x - s.getV y)).setVF (noBorrowFlag (s.getV x) (s.getV y)))

/-- `V[x] <- src >> 1`, then `VF` = old bit 0 of `src` (R197). -/
def execShiftRight (x y : Register) (s : State) : Out :=
  .next ((s.setV x (s.shiftSource x y >>> 1)).setVF (lowBitFlag (s.shiftSource x y)))

/-- `V[x] <- (V[y] - V[x]) mod 256`, then `VF` = no borrow (R199). -/
def execSubNRegister (x y : Register) (s : State) : Out :=
  .next ((s.setV x (s.getV y - s.getV x)).setVF (noBorrowFlag (s.getV y) (s.getV x)))

/-- `V[x] <- (src << 1) mod 256`, then `VF` = old bit 7 of `src` (R201). -/
def execShiftLeft (x y : Register) (s : State) : Out :=
  .next ((s.setV x (s.shiftSource x y <<< 1)).setVF (highBitFlag (s.shiftSource x y)))

/-- `V[x] <- draw & kk`, the draw a free byte (R203, D32). -/
def execRandom (x : Register) (kk : Byte) (s : State) : Out := .next (s.draw.setV x (s.randomByte &&& kk))

end Sys2Proof.Machine
end

