-- ==== Sys2Proof/Machine/Flow.lean ====
section
/-! DEFINITION. Classes 0, 1, 2 and B (`43_flow.md`). `pc` already holds the successor's address (R126). -/

namespace Sys2Proof.Machine

/-- `Renderer.clear()`; nothing else changes (R141). -/
def execClearScreen (s : State) : Out := .next (s.callRenderer .clear)

/-- `pc <- StackPop()`, or `StackUnderflow` (R143). -/
def execReturn (s : State) : Out :=
  s.finish (match s.stackPop with
    | .error e => .error e
    | .ok (a, t) => .ok (t.setPc a))

/-- Under `SYS_POLICY = ignore` nothing changes; under `fault` the instruction is reported as unsupported (R145; log entry 11). -/
def execSys (nnn : Address) (s : State) : Out :=
  s.finish (match s.params.sysPolicy with
    | .ignore => .ok s
    | .fault => .error (.sysUnsupported nnn))

/-- `pc <- zext_16(nnn)` (R147). -/
def execJump (nnn : Address) (s : State) : Out := .next (s.setPc (target nnn))

/-- `StackPush(pc); pc <- zext_16(nnn)`, or `StackOverflow` (R149). -/
def execCall (nnn : Address) (s : State) : Out :=
  s.finish (match s.stackPush s.pc with
    | .error e => .error e
    | .ok t => .ok (t.setPc (target nnn)))

/-- `pc <- zext_16(nnn) + zext_16(V[0])` (R151). -/
def execJumpOffset (nnn : Address) (s : State) : Out :=
  .next (s.setPc (target nnn + (s.getV jumpOffsetRegister).setWidth 16))

end Sys2Proof.Machine
end

