-- ==== Sys2Proof/Machine/IndexMemory.lean ====
section
/-! DEFINITION. Index register, memory and sprite instructions, classes A, D and part of F (`46_index_memory_draw.md`). -/

namespace Sys2Proof.Machine

/-- `I <- zext_16(nnn)` (R211). -/
def execLoadIndex (nnn : Address) (s : State) : Out := .next (s.setI (target nnn))

/-- The rows read, the renderer called, `VF` = its collision answer; no row, no call and `VF = 0` for `n = 0` (R213). DEDUCED, unsafe:
log entry 9. -/
def State.drawSprite (s : State) (x y : Register) (rows : List Byte) : State :=
  match rows with
  | [] => s.setVF 0
  | _ => (s.draw.callRenderer (.draw (s.getV x) (s.getV y) rows)).setVF (flag s.collision)

/-- `n` rows read from `I`, drawn at `(V[x], V[y])`, or `MemOutOfBounds` before the renderer is called (R213). -/
def execDisplaySprite (x y : Register) (n : Nibble) (s : State) : Out :=
  s.finish (match s.loadBytes (s.ea 0) n.toNat with
    | .error e => .error e
    | .ok rows => .ok (s.drawSprite x y rows))

/-- `I <- (I + V[x]) mod 65536`; `VF` only under `ADDINDEX_SETS_VF` (R215). -/
def execAddIndex (x : Register) (s : State) : Out :=
  .next ((s.setI (s.i + (s.getV x).setWidth 16)).indexVF (indexFlag s.i (s.getV x)))

/-- `I <- FONT_BASE + 5 * V[x]` (R217). -/
def execLoadFont (x : Register) (s : State) : Out := .next (s.draw.setI (s.fontAddress (s.getV x)))

/-- The three digits of `V[x]` to `I`, `I + 1`, `I + 2`, or `MemOutOfBounds` and no write (R219). -/
def execStoreBcd (x : Register) (s : State) : Out := s.finish (s.storeBytes (s.ea 0) (bcdDigits (s.getV x)))

/-- `V0` to `Vx` to `I`, ..., `I + x`, or `MemOutOfBounds` and no write (R221). -/
def execStoreRegisters (x : Register) (s : State) : Out :=
  s.finish (match s.storeBytes (s.ea 0) (s.firstRegisters x) with
    | .error e => .error e
    | .ok t => .ok (t.advanceI x))

/-- `V0` to `Vx` from `I`, ..., `I + x`, or `MemOutOfBounds` and no register written (R223). -/
def execLoadRegisters (x : Register) (s : State) : Out :=
  s.finish (match s.loadBytes (s.ea 0) (x.toNat + 1) with
    | .error e => .error e
    | .ok us => .ok ((s.setRegisters 0 us).advanceI x))

end Sys2Proof.Machine
end

