-- ==== Sys2Proof/Machine/Skips.lean ====
section
/-! DEFINITION. The conditional skips, classes 3, 4, 5, 9 and E (`44_skips.md`). -/

namespace Sys2Proof.Machine

/-- `if V[x] == kk then pc <- pc + 2` (R161). -/
def execSkipEqualByte (x : Register) (kk : Byte) (s : State) : Out := .next (s.skipIf (s.getV x == kk))

/-- `if V[x] != kk then pc <- pc + 2` (R163). -/
def execSkipNotEqualByte (x : Register) (kk : Byte) (s : State) : Out := .next (s.skipIf (s.getV x != kk))

/-- `if V[x] == V[y] then pc <- pc + 2` (R165). -/
def execSkipEqualRegister (x y : Register) (s : State) : Out := .next (s.skipIf (s.getV x == s.getV y))

/-- `if V[x] != V[y] then pc <- pc + 2` (R167). -/
def execSkipNotEqualRegister (x y : Register) (s : State) : Out := .next (s.skipIf (s.getV x != s.getV y))

/-- `if Keyboard.is_down(V[x]) then pc <- pc + 2` (R169). -/
def execSkipKeyPress (x : Register) (s : State) : Out :=
  match s.keyAnswer (s.getV x) with
  | some down => .next (s.draw.skipIf down)
  | none => .refused (.keyIndex (s.getV x))

/-- `if not Keyboard.is_down(V[x]) then pc <- pc + 2` (R171). -/
def execSkipKeyNotPress (x : Register) (s : State) : Out :=
  match s.keyAnswer (s.getV x) with
  | some down => .next (s.draw.skipIf (!down))
  | none => .refused (.keyIndex (s.getV x))

end Sys2Proof.Machine
end

