-- ==== Sys2Proof/Machine/Timers.lean ====
section
/-! DEFINITION. Timer and key-wait instructions, class F, low bytes 07, 0A, 15, 18 (`47_timers_keys.md`). -/

namespace Sys2Proof.Machine

/-- `V[x] <- DT` (R231). -/
def execLoadFromDelay (x : Register) (s : State) : Out := .next (s.setV x s.dt)

/-- `match Keyboard.pressed(): some k: V[x] <- zext_8(k); none: pc <- pc - 2` (R233). -/
def State.takeKey (s : State) (x : Register) (key : Option (BitVec 4)) : State :=
  match key with
  | some k => s.setV x (k.setWidth 8)
  | none => s.setPc (s.pc - 2)

/-- One step of the wait for a key (R233). -/
def execLoadKeyPress (x : Register) (s : State) : Out := .next (s.draw.takeKey x s.keyPressed)

/-- `DT <- V[x]` (R235). -/
def execLoadDelay (x : Register) (s : State) : Out := .next (s.setDt (s.getV x))

/-- `ST <- V[x]` (R237). -/
def execLoadSound (x : Register) (s : State) : Out := .next (s.setSt (s.getV x))

end Sys2Proof.Machine
end

