-- ==== Sys2Proof/Machine/Dispatch.lean ====
section
/-! DEFINITION. `exec`: one arm per instruction, each a call of its meaning (`41_opcode_table_decoder.md` R113), that of the
reference Execution Engine (R6). PRESUMED, unsafe: log entry 1. -/

namespace Sys2Proof.Machine

def exec (i : Instr) (s : State) : Host.Outcome State Fault Refusal :=
  match i with
  | .clearScreen => Sys2Proof.Machine.execClearScreen s
  | .ret => Sys2Proof.Machine.execReturn s
  | .sys nnn => Sys2Proof.Machine.execSys nnn s
  | .jump nnn => Sys2Proof.Machine.execJump nnn s
  | .call nnn => Sys2Proof.Machine.execCall nnn s
  | .skipEqualByte x kk => Sys2Proof.Machine.execSkipEqualByte x kk s
  | .skipNotEqualByte x kk => Sys2Proof.Machine.execSkipNotEqualByte x kk s
  | .skipEqualRegister x y => Sys2Proof.Machine.execSkipEqualRegister x y s
  | .loadByte x kk => Sys2Proof.Machine.execLoadByte x kk s
  | .addByte x kk => Sys2Proof.Machine.execAddByte x kk s
  | .loadRegister x y => Sys2Proof.Machine.execLoadRegister x y s
  | .orRegister x y => Sys2Proof.Machine.execOrRegister x y s
  | .andRegister x y => Sys2Proof.Machine.execAndRegister x y s
  | .xorRegister x y => Sys2Proof.Machine.execXorRegister x y s
  | .addRegister x y => Sys2Proof.Machine.execAddRegister x y s
  | .subRegister x y => Sys2Proof.Machine.execSubRegister x y s
  | .shiftRight x y => Sys2Proof.Machine.execShiftRight x y s
  | .subNRegister x y => Sys2Proof.Machine.execSubNRegister x y s
  | .shiftLeft x y => Sys2Proof.Machine.execShiftLeft x y s
  | .skipNotEqualRegister x y => Sys2Proof.Machine.execSkipNotEqualRegister x y s
  | .loadIndex nnn => Sys2Proof.Machine.execLoadIndex nnn s
  | .jumpOffset nnn => Sys2Proof.Machine.execJumpOffset nnn s
  | .random x kk => Sys2Proof.Machine.execRandom x kk s
  | .displaySprite x y n => Sys2Proof.Machine.execDisplaySprite x y n s
  | .skipKeyPress x => Sys2Proof.Machine.execSkipKeyPress x s
  | .skipKeyNotPress x => Sys2Proof.Machine.execSkipKeyNotPress x s
  | .loadFromDelay x => Sys2Proof.Machine.execLoadFromDelay x s
  | .loadKeyPress x => Sys2Proof.Machine.execLoadKeyPress x s
  | .loadDelay x => Sys2Proof.Machine.execLoadDelay x s
  | .loadSound x => Sys2Proof.Machine.execLoadSound x s
  | .addIndex x => Sys2Proof.Machine.execAddIndex x s
  | .loadFont x => Sys2Proof.Machine.execLoadFont x s
  | .storeBcd x => Sys2Proof.Machine.execStoreBcd x s
  | .storeRegisters x => Sys2Proof.Machine.execStoreRegisters x s
  | .loadRegisters x => Sys2Proof.Machine.execLoadRegisters x s

end Sys2Proof.Machine
end

