-- ==== Sys2Proof/Machine/Sequencer.lean ====
section
/-! DEFINITION. One step of the machine: the halt gating, the driver's ticks, the fetch, the dispatch of its result
(`42_fetch_loop.md` R126 to R130; `60_exceptions.md` R248). -/

namespace Sys2Proof.Machine

/-- The action on a fetch's result, in the state the fetch left (R113, R126, R127). -/
def dispatch (r : FetchResult) (s : State) : Out :=
  match r with
  | .fatal _ => .next s
  | .fetched .noOp => .next s
  | .fetched (.decoded i) => exec i s
  | .fetched (.unknownOpcode w) => .next (s.raiseUnknown w)

/-- Why the sequencer takes no step: `HALT` (R128), a run the Execution Engine has ended (R130), a low fetch not opted in to (R124). -/
def State.gate (s : State) : Option Out :=
  if s.halt then some (.fault .halted)
  else if s.stopped then some (.fault .runEnded)
  else if s.refusesLowFetch then some (.refused (.lowFetch s.pc))
  else none

/-- The driver's ticks, one fetch, the dispatch of its result (R126, R256). DESIGN CHOICE, safe: log entry 4. -/
def State.cycle (s : State) : Out := dispatch s.elapse.fetchStep.1 s.elapse.fetchStep.2

/-- One step (R19, R126). -/
def sequencerStep (s : State) : Out :=
  match s.gate with
  | some o => o
  | none => s.cycle

end Sys2Proof.Machine
end

