-- ==== Sys2Proof/Machine/Step.lean ====
section
/-! DEFINITION. The step of the machine (`42_fetch_loop.md` R126) and the placing of an instruction where it fetches. -/

namespace Sys2Proof.Machine

/-- One step of the machine. -/
def step (s : State) : Host.Outcome State Fault Refusal := sequencerStep s

/-- `s` with the instruction word `w` where `step` fetches next. Every instruction is one 16-bit word (R70), so `nbits` adds nothing. -/
def State.withFetchWord (s : State) (_nbits w : Nat) : State := s.placeWord w

end Sys2Proof.Machine
end

