-- ==== Sys2Proof/Safety.lean ====
section
/-! DEFINITION. What counts as a valid fetch, the invariants and the frames claims use. -/

namespace Sys2Proof.Machine

/-- `FetchValid(PC)`: the document's condition `0x200 <= PC <= 0xFFE` (`42_fetch_loop.md` R124). -/
def State.FetchValid (s : State) : Prop := 0x200 ≤ s.pc.toNat ∧ s.pc.toNat ≤ 0xFFE

/-- The sequencer takes its step: not halted, the run not ended, no refused low fetch (R124, R128, R130). -/
def State.Running (s : State) : Prop := s.halt = false ∧ s.stopped = false ∧ s.refusesLowFetch = false

/-- No write above `0xFFF` has happened and memory is in canonical form (`10_state.md` R38). -/
def State.MemoryOk (s : State) : Prop := s.mem.wf = true

/-- No wrap-around of `PC` (R28): `PC` stays at or below the largest value a `JumpOffset` gives (R151), and every stack entry at or
below the largest value a fetch's advance gives (R123). -/
def State.PcBounded (s : State) : Prop :=
  s.pc.toNat ≤ 0x10FE ∧ ∀ (k : Nat) (h : k < 16), (s.stack[k]'h).toNat ≤ 0x1000

/-- `HALT` is set only by a failed fetch: `PC` still holds the offending value, which was reported (R35, R122). -/
def State.HaltExplained (s : State) : Prop :=
  s.halt = true → s.pc.toNat > 0xFFE ∧ s.status = .fetchOutOfBounds s.pc

/-- A run the Execution Engine has ended shows the error it ended for (R130, R242, R244). -/
def State.StopExplained (s : State) : Prop :=
  s.stopped = true → (∃ w, s.status = .unknownOpcode w) ∨ (∃ e, s.status = .execError e)

/-- Every byte of memory reads as before. -/
def SameBytes (s t : State) : Prop := ∀ a, t.mem.read a = s.mem.read a

/-- Every item of State but `v` is unchanged, and so every byte of memory. -/
def OnlyV (s t : State) : Prop := t = { s with v := t.v } ∧ SameBytes s t

/-- Every item of State but `pc` is unchanged, and so every byte of memory. -/
def OnlyPc (s t : State) : Prop := t = { s with pc := t.pc } ∧ SameBytes s t

/-- An error was reported and nothing else happened: `result` on the status port, every other item as before but whether the
Execution Engine ends the run (R240, R249). -/
def OnlyReports (s t : State) (result : Status) : Prop :=
  t = { s with status := result, stopped := t.stopped } ∧ SameBytes s t

/-- Every `V` register but those named is unchanged. -/
def SameVBut (xs : List Register) (s t : State) : Prop := ∀ r, r ∉ xs → t.getV r = s.getV r

end Sys2Proof.Machine
end

