-- ==== Sys2Proof/Certificates/Slice0/Obligations.lean ====
section
/-! DEFINITION. The statements for the provers, from the numbered rules of `spec/`. Execution rules are those of the reference Execution
Engine, which the spec marks `[from general knowledge, not in source]` (R6). -/

open Sys2Proof Sys2Proof.Machine

/-! ## Encoding and decoding -/

/-- R87, R81 (the spec marks both as derived): decoding an encoded instruction gives it back, but for the three values of `SYS` without
an encoding. -/
def Obligations.DecodeInvertsEncode : Prop :=
  (∀ i : Instr, WellFormed i = true → decode (encode i) = .decoded i) ∧
  decode (encode (.sys 0x000)) = .noOp ∧
  decode (encode (.sys 0x0E0)) = .decoded .clearScreen ∧
  decode (encode (.sys 0x0EE)) = .decoded .ret

/-- R87, R81 (the spec marks both as derived): every word that decodes is rebuilt from its instruction, and no ill-formed instruction is
ever decoded. -/
def Obligations.EncodeInvertsDecode : Prop :=
  ∀ (w : Word) (i : Instr), decode w = .decoded i → encode i = w ∧ WellFormed i = true

/-- R90 to R95: the six extractor functions. -/
def Obligations.ExtractorFields : Prop :=
  ∀ op : Word,
    (fF000 op).setWidth 16 = (op >>> 12) &&& 0xF ∧
    (f0FFF op).setWidth 16 = op &&& 0x0FFF ∧
    (f0F00 op).setWidth 16 = (op >>> 8) &&& 0xF ∧
    (f00F0 op).setWidth 16 = (op >>> 4) &&& 0xF ∧
    (f000F op).setWidth 16 = op &&& 0xF ∧
    (f00FF op).setWidth 16 = op &&& 0xFF

/-- R103, R104, R107, R109: exactly one of three outcomes for every word; the least row that matches is selected. -/
def Obligations.DecodeOutcomes : Prop :=
  ∀ w : Word,
    (decode w = .noOp ↔ w = 0) ∧
    ((∃ i, decode w = .decoded i) ↔ w ≠ 0 ∧ ∃ r ∈ opcodeTable, w &&& r.mask = r.expected) ∧
    (∀ u, decode w = .unknownOpcode u ↔ u = w ∧ w ≠ 0 ∧ ∀ r ∈ opcodeTable, w &&& r.mask ≠ r.expected) ∧
    (∀ (k : Nat) (r : Row), w ≠ 0 → opcodeTable[k]? = some r → w &&& r.mask = r.expected →
      (∀ (j : Nat) (r' : Row), j < k → opcodeTable[j]? = some r' → w &&& r'.mask ≠ r'.expected) →
      firstIndex w = some k ∧ decode w = .decoded (r.build w))

/-- R77 (marked as derived): only `0x00E0` and `0x00EE` match two rows. -/
def Obligations.OnlyTwoWordsMatchTwoRows : Prop :=
  ∀ (w : Word) (j k : Nat) (r r' : Row), j < k → opcodeTable[j]? = some r → opcodeTable[k]? = some r' →
    r.hit w = true → r'.hit w = true → (w = 0x00E0 ∧ j = 0 ∧ k = 2) ∨ (w = 0x00EE ∧ j = 1 ∧ k = 2)

/-- R80 (marked as derived): the illegal words, class by class. -/
def Obligations.IllegalWords : Prop :=
  ∀ w : Word, decode w = .unknownOpcode w ↔
    (fF000 w = 0x5 ∧ f000F w ≠ 0x0) ∨
    (fF000 w = 0x8 ∧ f000F w ∈ [0x8#4, 0x9#4, 0xA#4, 0xB#4, 0xC#4, 0xD#4, 0xF#4]) ∨
    (fF000 w = 0x9 ∧ f000F w ≠ 0x0) ∨
    (fF000 w = 0xE ∧ f00FF w ∉ [0x9E#8, 0xA1#8]) ∨
    (fF000 w = 0xF ∧ f00FF w ∉ [0x07#8, 0x0A#8, 0x15#8, 0x18#8, 0x1E#8, 0x29#8, 0x33#8, 0x55#8, 0x65#8])

/-- R102 (marked as derived), R73: the invariants of the table. -/
def Obligations.OpcodeTableShape : Prop :=
  opcodeTable.length = 35 ∧ (opcodeTable.map (·.op)).Nodup ∧
  ∀ r ∈ opcodeTable, r.expected &&& ~~~r.mask = 0 ∧ r.mask &&& 0xF000 = 0xF000 ∧
    r.mask ∈ [0xFFFF#16, 0xF000#16, 0xF00F#16, 0xF0FF#16]

/-- R112, R113 (decision D7): the ports of the decoder and dispatch mux; one handler line for a decoded word, none otherwise. -/
def Obligations.DispatchPorts : Prop :=
  ∀ w : Word,
    (decode w = .noOp → ports w = Ports.zero) ∧
    (∀ u, decode w = .unknownOpcode u → ports w = { Ports.zero with outcome := 2, errWord := w }) ∧
    (∀ (k : Nat) (r : Row), w ≠ 0 → firstIndex w = some k → opcodeTable[k]? = some r →
      (ports w).outcome = 1 ∧ (ports w).sel.toNat = k ∧
      (∀ j, j < 35 → ((ports w).dispatch.getLsbD j = true ↔ j = k)) ∧
      (ports w).opNnn = (if r.format = .a then f0FFF w else 0) ∧
      (ports w).opX = (if r.format ∈ [.xk, .xy, .xyn, .x] then f0F00 w else 0) ∧
      (ports w).opY = (if r.format ∈ [.xy, .xyn] then f00F0 w else 0) ∧
      (ports w).opKk = (if r.format = .xk then f00FF w else 0) ∧
      (ports w).opN = (if r.format = .xyn then f000F w else 0) ∧
      (ports w).errWord = 0)

/-- R140, R142, R144, R146, R148, R150: the decode rules of classes 0, 1, 2 and B. -/
def Obligations.DecodeRulesOfFlow : Prop :=
  opcodeTable[0]? = some ⟨0x00E0, 0xFFFF, .z, .clearScreen⟩ ∧
  opcodeTable[1]? = some ⟨0x00EE, 0xFFFF, .z, .ret⟩ ∧
  opcodeTable[2]? = some ⟨0x0000, 0xF000, .a, .sys⟩ ∧
  opcodeTable[3]? = some ⟨0x1000, 0xF000, .a, .jump⟩ ∧
  opcodeTable[4]? = some ⟨0x2000, 0xF000, .a, .call⟩ ∧
  opcodeTable[21]? = some ⟨0xB000, 0xF000, .a, .jumpOffset⟩ ∧
  ∀ w : Word,
    (decode w = .decoded .clearScreen ↔ w = 0x00E0) ∧
    (decode w = .decoded .ret ↔ w = 0x00EE) ∧
    (w ≠ 0 → w ≠ 0x00E0 → w ≠ 0x00EE → fF000 w = 0x0 → decode w = .decoded (.sys (f0FFF w))) ∧
    (∀ a, decode w = .decoded (.sys a) → a ≠ 0x000 ∧ a ≠ 0x0E0 ∧ a ≠ 0x0EE) ∧
    (fF000 w = 0x1 → decode w = .decoded (.jump (f0FFF w))) ∧
    (fF000 w = 0x2 → decode w = .decoded (.call (f0FFF w))) ∧
    (fF000 w = 0xB → decode w = .decoded (.jumpOffset (f0FFF w)))

/-- R160, R162, R164, R166, R168, R170: the decode rules of the skips. -/
def Obligations.DecodeRulesOfSkips : Prop :=
  opcodeTable[5]? = some ⟨0x3000, 0xF000, .xk, .skipEqualByte⟩ ∧
  opcodeTable[6]? = some ⟨0x4000, 0xF000, .xk, .skipNotEqualByte⟩ ∧
  opcodeTable[7]? = some ⟨0x5000, 0xF00F, .xy, .skipEqualRegister⟩ ∧
  opcodeTable[19]? = some ⟨0x9000, 0xF00F, .xy, .skipNotEqualRegister⟩ ∧
  opcodeTable[24]? = some ⟨0xE09E, 0xF0FF, .x, .skipKeyPress⟩ ∧
  opcodeTable[25]? = some ⟨0xE0A1, 0xF0FF, .x, .skipKeyNotPress⟩ ∧
  ∀ w : Word,
    (fF000 w = 0x3 → decode w = .decoded (.skipEqualByte (f0F00 w) (f00FF w))) ∧
    (fF000 w = 0x4 → decode w = .decoded (.skipNotEqualByte (f0F00 w) (f00FF w))) ∧
    (fF000 w = 0x5 → f000F w = 0x0 → decode w = .decoded (.skipEqualRegister (f0F00 w) (f00F0 w))) ∧
    (fF000 w = 0x5 → f000F w ≠ 0x0 → decode w = .unknownOpcode w) ∧
    (fF000 w = 0x9 → f000F w = 0x0 → decode w = .decoded (.skipNotEqualRegister (f0F00 w) (f00F0 w))) ∧
    (fF000 w = 0x9 → f000F w ≠ 0x0 → decode w = .unknownOpcode w) ∧
    (fF000 w = 0xE → f00FF w = 0x9E → decode w = .decoded (.skipKeyPress (f0F00 w))) ∧
    (fF000 w = 0xE → f00FF w = 0xA1 → decode w = .decoded (.skipKeyNotPress (f0F00 w))) ∧
    (fF000 w = 0xE → f00FF w ≠ 0x9E → f00FF w ≠ 0xA1 → decode w = .unknownOpcode w)

/-- R180, R182, R202 and the nine class-8 rules, R205 among them: the decode rules of the register and arithmetic instructions. -/
def Obligations.DecodeRulesOfAlu : Prop :=
  opcodeTable[8]? = some ⟨0x6000, 0xF000, .xk, .loadByte⟩ ∧
  opcodeTable[9]? = some ⟨0x7000, 0xF000, .xk, .addByte⟩ ∧
  opcodeTable[22]? = some ⟨0xC000, 0xF000, .xk, .random⟩ ∧
  (opcodeTable.drop 10).take 9 =
    [⟨0x8000, 0xF00F, .xy, .loadRegister⟩, ⟨0x8001, 0xF00F, .xy, .orRegister⟩, ⟨0x8002, 0xF00F, .xy, .andRegister⟩,
     ⟨0x8003, 0xF00F, .xy, .xorRegister⟩, ⟨0x8004, 0xF00F, .xy, .addRegister⟩, ⟨0x8005, 0xF00F, .xy, .subRegister⟩,
     ⟨0x8006, 0xF00F, .xy, .shiftRight⟩, ⟨0x8007, 0xF00F, .xy, .subNRegister⟩, ⟨0x800E, 0xF00F, .xy, .shiftLeft⟩] ∧
  ∀ w : Word,
    (fF000 w = 0x6 → decode w = .decoded (.loadByte (f0F00 w) (f00FF w))) ∧
    (fF000 w = 0x7 → decode w = .decoded (.addByte (f0F00 w) (f00FF w))) ∧
    (fF000 w = 0xC → decode w = .decoded (.random (f0F00 w) (f00FF w))) ∧
    (fF000 w = 0x8 →
      (f000F w = 0x0 → decode w = .decoded (.loadRegister (f0F00 w) (f00F0 w))) ∧
      (f000F w = 0x1 → decode w = .decoded (.orRegister (f0F00 w) (f00F0 w))) ∧
      (f000F w = 0x2 → decode w = .decoded (.andRegister (f0F00 w) (f00F0 w))) ∧
      (f000F w = 0x3 → decode w = .decoded (.xorRegister (f0F00 w) (f00F0 w))) ∧
      (f000F w = 0x4 → decode w = .decoded (.addRegister (f0F00 w) (f00F0 w))) ∧
      (f000F w = 0x5 → decode w = .decoded (.subRegister (f0F00 w) (f00F0 w))) ∧
      (f000F w = 0x6 → decode w = .decoded (.shiftRight (f0F00 w) (f00F0 w))) ∧
      (f000F w = 0x7 → decode w = .decoded (.subNRegister (f0F00 w) (f00F0 w))) ∧
      (f000F w = 0xE → decode w = .decoded (.shiftLeft (f0F00 w) (f00F0 w))) ∧
      (f000F w ∈ [0x8#4, 0x9#4, 0xA#4, 0xB#4, 0xC#4, 0xD#4, 0xF#4] → decode w = .unknownOpcode w))

/-- R210, R212, R214, R216, R218, R220, R222, R224, R230, R232, R234, R236: the decode rules of classes A, D and F. -/
def Obligations.DecodeRulesOfClassesADF : Prop :=
  opcodeTable[20]? = some ⟨0xA000, 0xF000, .a, .loadIndex⟩ ∧
  opcodeTable[23]? = some ⟨0xD000, 0xF000, .xyn, .displaySprite⟩ ∧
  opcodeTable.drop 26 =
    [⟨0xF007, 0xF0FF, .x, .loadFromDelay⟩, ⟨0xF00A, 0xF0FF, .x, .loadKeyPress⟩, ⟨0xF015, 0xF0FF, .x, .loadDelay⟩,
     ⟨0xF018, 0xF0FF, .x, .loadSound⟩, ⟨0xF01E, 0xF0FF, .x, .addIndex⟩, ⟨0xF029, 0xF0FF, .x, .loadFont⟩,
     ⟨0xF033, 0xF0FF, .x, .storeBcd⟩, ⟨0xF055, 0xF0FF, .x, .storeRegisters⟩, ⟨0xF065, 0xF0FF, .x, .loadRegisters⟩] ∧
  ∀ w : Word,
    (fF000 w = 0xA → decode w = .decoded (.loadIndex (f0FFF w))) ∧
    (fF000 w = 0xD → decode w = .decoded (.displaySprite (f0F00 w) (f00F0 w) (f000F w))) ∧
    (fF000 w = 0xF →
      (f00FF w = 0x07 → decode w = .decoded (.loadFromDelay (f0F00 w))) ∧
      (f00FF w = 0x0A → decode w = .decoded (.loadKeyPress (f0F00 w))) ∧
      (f00FF w = 0x15 → decode w = .decoded (.loadDelay (f0F00 w))) ∧
      (f00FF w = 0x18 → decode w = .decoded (.loadSound (f0F00 w))) ∧
      (f00FF w = 0x1E → decode w = .decoded (.addIndex (f0F00 w))) ∧
      (f00FF w = 0x29 → decode w = .decoded (.loadFont (f0F00 w))) ∧
      (f00FF w = 0x33 → decode w = .decoded (.storeBcd (f0F00 w))) ∧
      (f00FF w = 0x55 → decode w = .decoded (.storeRegisters (f0F00 w))) ∧
      (f00FF w = 0x65 → decode w = .decoded (.loadRegisters (f0F00 w))) ∧
      (f00FF w ∉ [0x07#8, 0x0A#8, 0x15#8, 0x18#8, 0x1E#8, 0x29#8, 0x33#8, 0x55#8, 0x65#8] → decode w = .unknownOpcode w))

/-- S1 to S6, S12 of `95_test_vectors.md`: words written out from the spec's encodings decode to what they stand for. -/
def Obligations.DecodedExampleWords : Prop :=
  decode 0b0001_1010_1011_1100 = .decoded (.jump 0xABC) ∧
  decode 0b1000_1101_1011_0101 = .decoded (.subRegister 0xD 0xB) ∧
  decode 0b1101_1101_1011_0101 = .decoded (.displaySprite 0xD 0xB 0x5) ∧
  decode 0b0000_0000_1110_0000 = .decoded .clearScreen ∧
  decode 0b1111_1100_0001_0100 = .unknownOpcode 0xFC14 ∧
  decode 0b1110_1011_1000_1110 = .unknownOpcode 0xEB8E ∧
  decode 0b0000_0000_0000_0000 = .noOp ∧
  decode 0b0000_0000_0000_0001 = .decoded (.sys 0x001)

/-! ## Reset and the loader -/

/-- R42, R271: every item after reset with the ROM image copied to `0x200`. -/
def Obligations.BootLoadsRomOverReset : Prop :=
  ∀ (p : Params) (rom : List Byte), rom.length ≤ 3584 →
    ∃ t, boot p rom = .next t ∧
      (∀ (k : Nat) (h : k < rom.length), t.mem.read (0x200 + k) = rom[k]) ∧
      (∀ a, a < 0x200 ∨ 0x200 + rom.length ≤ a → t.mem.read a = 0) ∧
      (∀ r, t.getV r = 0) ∧ t.i = 0 ∧ t.pc = 0x0200 ∧ (∀ (k : Nat) (h : k < 16), t.stack[k] = 0) ∧ t.sp = 0 ∧
      t.dt = 0 ∧ t.st = 0 ∧ t.halt = false ∧ t.params = p

/-- `20_memory.md` section 5 and decision D16: an image above 3584 bytes is rejected, or runs as its first 3584 bytes. -/
def Obligations.OversizeRomIsRejectedOrTruncated : Prop :=
  ∀ (p : Params) (rom : List Byte), 3584 < rom.length →
    (p.romOversizePolicy = .reject → boot p rom = .refused (.romTooLarge rom.length)) ∧
    (p.romOversizePolicy = .truncate → ∃ t, boot p rom = .next t ∧ boot p (rom.take 3584) = .next t)

/-- The reset state meets every invariant below. -/
def Obligations.ResetMeetsTheInvariants : Prop :=
  State.reset.MemoryOk ∧ State.reset.PcBounded ∧ State.reset.HaltExplained ∧ State.reset.StopExplained ∧ State.reset.FetchValid

/-! ## Fetch and step -/

/-- R121, R122, R123, R132: one fetch. Within bounds it composes the big-endian word at `PC` and adds 2 without wrapping; above `0xFFE`
it sets `HALT` and keeps `PC`. Nothing else changes but the status port. -/
def Obligations.FetchReadsAndAdvancesOrHalts : Prop :=
  ∀ s : State,
    (s.pc.toNat ≤ 0xFFE →
      ∃ w : Word, w.toNat = 256 * (s.mem.read s.pc.toNat).toNat + (s.mem.read (s.pc.toNat + 1)).toNat ∧
        s.fetchStep.1 = .fetched (decode w) ∧
        s.fetchStep.2.pc.toNat = s.pc.toNat + 2 ∧
        s.fetchStep.2 = { s with pc := s.fetchStep.2.pc, status := s.fetchStep.2.status }) ∧
    (0xFFE < s.pc.toNat →
      s.fetchStep.1 = .fatal s.pc ∧ s.fetchStep.2 = { s with halt := true, status := .fetchOutOfBounds s.pc })

/-- R126: a step runs the decoded instruction, in the state the driver's ticks left with `PC` advanced and the status port at `ok`. -/
def Obligations.StepRunsDecodedInstruction : Prop :=
  ∀ (s : State) (i : Instr), s.Running → s.pc.toNat ≤ 0xFFE → decode s.fetchWord = .decoded i →
    step s = exec i { s.tickMany s.ticksDue with pc := s.pc + 2, status := .ok, draws := s.draws + 1 }

/-- R246: a `NoOp` step changes `PC` alone, besides the ticks between steps and the status port. -/
def Obligations.NoOpStepOnlyAdvances : Prop :=
  ∀ s : State, s.Running → s.pc.toNat ≤ 0xFFE → s.fetchWord = 0 →
    step s = .next { s.tickMany s.ticksDue with pc := s.pc + 2, status := .noOp, draws := s.draws + 1 }

/-- R242: an illegal word under each `UNKNOWN_POLICY`. -/
def Obligations.UnknownOpcodeStep : Prop :=
  ∀ (s : State) (w : Word), s.Running → s.pc.toNat ≤ 0xFFE → decode s.fetchWord = .unknownOpcode w →
    ∃ t, step s = .next t ∧ w = s.fetchWord ∧ t.status = .unknownOpcode w ∧ t.pc = s.pc + 2 ∧ t.halt = false ∧
      t.stopped = (s.params.unknownPolicy == .halt) ∧
      t.log = (if s.params.unknownPolicy = .logAndContinue then w :: s.log else s.log) ∧
      t = { s with pc := t.pc, status := t.status, stopped := t.stopped, log := t.log, dt := t.dt, st := t.st, draws := t.draws } ∧
      SameBytes s t

/-- R122, R243: a step above `0xFFE` halts the machine with `PC` kept and the offending value reported. -/
def Obligations.FetchOutOfBoundsStep : Prop :=
  ∀ s : State, s.Running → 0xFFE < s.pc.toNat →
    ∃ t, step s = .next t ∧ t.halt = true ∧ t.pc = s.pc ∧ t.status = .fetchOutOfBounds s.pc ∧
      t = { s with halt := true, status := t.status, dt := t.dt, st := t.st, draws := t.draws } ∧
      step t = .fault .halted

/-- R35, R128: while `HALT == 1` there is no step; a run the Execution Engine has ended takes none either (log entry 7). -/
def Obligations.HaltedOrEndedTakesNoStep : Prop :=
  ∀ s : State, (s.halt = true → step s = .fault .halted) ∧ (s.halt = false → s.stopped = true → step s = .fault .runEnded)

/-- R124: a fetch below `0x200` is performed like any other under `ALLOW_LOW_FETCH`, and refused without it, which is the default
(decision D8). -/
def Obligations.FetchBelowProgramArea : Prop :=
  State.reset.params.allowLowFetch = false ∧
  ∀ s : State, s.halt = false → s.stopped = false → s.pc.toNat < 0x200 →
    (s.params.allowLowFetch = false → step s = .refused (.lowFetch s.pc)) ∧
    (s.params.allowLowFetch = true → step s = dispatch s.elapse.fetchStep.1 s.elapse.fetchStep.2)

/-- R64 (marked as derived): bytes a store writes at the next `PC` are the word the next fetch reads. -/
def Obligations.StoredWordIsFetched : Prop :=
  ∀ (x : Register) (s t : State) (k : Nat), s.MemoryOk → s.ea x.toNat ≤ 0xFFF → exec (.storeRegisters x) s = .next t →
    k + 1 ≤ x.toNat → t.pc.toNat = s.ea k →
    t.fetchStep.1 = .fetched (decode (s.getV (BitVec.ofNat 4 k) ++ s.getV (BitVec.ofNat 4 (k + 1))))

/-! ## Invariants that every step keeps -/

/-- `10_state.md` R38: no step writes above `0xFFF`, and memory keeps its canonical form. -/
def Obligations.EveryStepKeepsMemoryOk : Prop :=
  ∀ s t : State, s.MemoryOk → step s = .next t → t.MemoryOk

/-- `10_state.md` R28 (no wrap-around), with the bounds of R123, R149, R151: no step takes `PC` above `0x10FE` or pushes above `0x1000`. -/
def Obligations.EveryStepKeepsPcBounded : Prop :=
  ∀ s t : State, s.PcBounded → step s = .next t → t.PcBounded

/-- R35, R122, R242, R244: `HALT` and the end of a run always stand beside the error that caused them. -/
def Obligations.EveryStepKeepsStopsExplained : Prop :=
  ∀ s t : State, s.HaltExplained → s.StopExplained → step s = .next t → t.HaltExplained ∧ t.StopExplained

/-- `00_scope.md` R10: the parameters are arguments of the model: no step changes one. The model's choice to hold them in State: log
entry 2. -/
def Obligations.NoStepChangesParams : Prop :=
  ∀ s t : State, step s = .next t → t.params = s.params

/-! ## Rules about all instructions -/

/-- `20_memory.md` section 4: memory is written by `StoreBcd` and `StoreRegisters` alone. -/
def Obligations.OnlyStoresWriteMemory : Prop :=
  ∀ (i : Instr) (s t : State), exec i s = .next t → (∀ x, i ≠ .storeBcd x) → (∀ x, i ≠ .storeRegisters x) →
    t.mem = s.mem ∧ SameBytes s t

/-- R32: the stack is touched by `Call` and `Return` alone, and never by a fetch. -/
def Obligations.OnlyCallAndReturnTouchTheStack : Prop :=
  (∀ (i : Instr) (s t : State), exec i s = .next t → (∀ a, i ≠ .call a) → i ≠ .ret → t.stack = s.stack ∧ t.sp = s.sp) ∧
  (∀ s : State, s.fetchStep.2.stack = s.stack ∧ s.fetchStep.2.sp = s.sp)

/-- `10_state.md` sections 3, 6, 7: which instructions write `I`, `DT`, `ST`; none writes `HALT`; the renderer is called by two. -/
def Obligations.SpecialRegisterWriters : Prop :=
  ∀ (i : Instr) (s t : State), exec i s = .next t →
    (t.i ≠ s.i → (∃ a, i = .loadIndex a) ∨ (∃ x, i = .addIndex x) ∨ (∃ x, i = .loadFont x) ∨
      (s.params.loadstoreIncrementsI = true ∧ ((∃ x, i = .storeRegisters x) ∨ (∃ x, i = .loadRegisters x)))) ∧
    (t.dt ≠ s.dt → ∃ x, i = .loadDelay x) ∧
    (t.st ≠ s.st → ∃ x, i = .loadSound x) ∧
    (t.rendered ≠ s.rendered → i = .clearScreen ∨ ∃ x y n, i = .displaySprite x y n) ∧
    t.halt = s.halt

/-- `60_exceptions.md` section 2 and decision D36: a failing instruction changes nothing but the report and the end of the run. -/
def Obligations.FailingInstructionIsPrecise : Prop :=
  ∀ (i : Instr) (s t : State) (e : ExecError), s.status = .ok → exec i s = .next t → t.status = .execError e →
    OnlyReports s t (.execError e) ∧ t.stopped = (s.stopped || s.params.errorPolicy == .halt)

/-- `10_state.md` section 6: `DT` is read by `LoadFromDelay` alone and `ST` by nothing: no other instruction's effect on the rest of the
machine depends on a timer. -/
def Obligations.OnlyLoadFromDelaySeesATimer : Prop :=
  ∀ (i : Instr) (s t : State) (d u : Byte), (∀ x, i ≠ .loadFromDelay x) → exec i s = .next t →
    ∃ t', exec i { s with dt := d, st := u } = .next t' ∧ t' = { t with dt := t'.dt, st := t'.st }

/-! ## Timers -/

/-- R256, R34: one tick decrements each timer, stops at zero, and changes nothing else, whatever `HALT` holds. -/
def Obligations.TickDecrementsToZero : Prop :=
  ∀ s : State, s.tick.dt.toNat = s.dt.toNat - 1 ∧ s.tick.st.toNat = s.st.toNat - 1 ∧
    s.tick = { s with dt := s.tick.dt, st := s.tick.st } ∧ (∀ u, (s.setDt u).st = s.st ∧ (s.setSt u).dt = s.dt)

/-- `60_exceptions.md` section 5: the ticks a step takes at once are that many single ticks. -/
def Obligations.TickManyIsRepeatedTicks : Prop :=
  ∀ (n : Nat) (s : State), s.tickMany n = State.tick^[n] s

/-! ## Classes 0, 1, 2 and B -/

/-- R141: `ClearScreen` calls the renderer and changes nothing of the Machine State. -/
def Obligations.ClearScreenOnlyCallsTheRenderer : Prop :=
  ∀ s : State, ∃ t, exec .clearScreen s = .next t ∧ t.rendered = .clear :: s.rendered ∧
    t = { s with rendered := t.rendered } ∧ SameBytes s t

/-- R143: `Return`, completing with an entry on the stack, raising without one. -/
def Obligations.ReturnPopsPc : Prop :=
  ∀ s : State,
    (∀ h : 0 < s.sp.val, ∃ t, exec .ret s = .next t ∧ t.pc = s.stack[s.sp.val - 1]'(by have := s.sp.isLt; omega) ∧
      t.sp.val = s.sp.val - 1 ∧ t = { s with pc := t.pc, sp := t.sp } ∧ SameBytes s t) ∧
    (s.sp.val = 0 → ∃ t, exec .ret s = .next t ∧ OnlyReports s t (.execError .stackUnderflow))

/-- R145: `SYS` under each `SYS_POLICY`, whose default is `ignore`. R145 says of `fault` only that the instruction is reported as
unsupported; the form of the report, and that nothing else happens but by policy the end of the run, are the model's choices
(log entries 11 and 7). -/
def Obligations.SysFollowsItsPolicy : Prop :=
  State.reset.params.sysPolicy = .ignore ∧
  ∀ (nnn : Address) (s : State),
    (s.params.sysPolicy = .ignore → exec (.sys nnn) s = .next s) ∧
    (s.params.sysPolicy = .fault → ∃ t, exec (.sys nnn) s = .next t ∧ OnlyReports s t (.execError (.sysUnsupported nnn)))

/-- R147, R151: the two jumps; the sum of `JumpOffset` is not reduced. -/
def Obligations.JumpsSetPc : Prop :=
  ∀ (nnn : Address) (s : State),
    (∃ t, exec (.jump nnn) s = .next t ∧ t.pc.toNat = nnn.toNat ∧ OnlyPc s t) ∧
    (∃ t, exec (.jumpOffset nnn) s = .next t ∧ t.pc.toNat = nnn.toNat + (s.getV 0).toNat ∧ OnlyPc s t)

/-- R149: `Call`, completing with a free entry, raising without one. -/
def Obligations.CallPushesPc : Prop :=
  ∀ (nnn : Address) (s : State),
    (∀ h : s.sp.val < 16, ∃ t, exec (.call nnn) s = .next t ∧ t.stack[s.sp.val] = s.pc ∧ t.sp.val = s.sp.val + 1 ∧
      t.pc.toNat = nnn.toNat ∧ (∀ (k : Nat) (hk : k < 16), k ≠ s.sp.val → t.stack[k] = s.stack[k]) ∧
      t = { s with pc := t.pc, sp := t.sp, stack := t.stack } ∧ SameBytes s t) ∧
    (s.sp.val = 16 → ∃ t, exec (.call nnn) s = .next t ∧ OnlyReports s t (.execError .stackOverflow))

/-- From R149 and R143 together: a `Return` right after a `Call` comes back to the call's successor with the stack pointer as it was. -/
def Obligations.ReturnUndoesCall : Prop :=
  ∀ (nnn : Address) (s : State), s.sp.val < 16 →
    ∃ t u, exec (.call nnn) s = .next t ∧ exec .ret t = .next u ∧ u.pc = s.pc ∧ u.sp = s.sp ∧
      u = { s with stack := u.stack }

/-! ## The skips -/

/-- R161, R163, R165, R167: the skips on bytes and registers. -/
def Obligations.RegisterSkips : Prop :=
  ∀ (x y : Register) (kk : Byte) (s : State),
    (∃ t, exec (.skipEqualByte x kk) s = .next t ∧ t.pc = (if s.getV x = kk then s.pc + 2 else s.pc) ∧ OnlyPc s t) ∧
    (∃ t, exec (.skipNotEqualByte x kk) s = .next t ∧ t.pc = (if s.getV x ≠ kk then s.pc + 2 else s.pc) ∧ OnlyPc s t) ∧
    (∃ t, exec (.skipEqualRegister x y) s = .next t ∧ t.pc = (if s.getV x = s.getV y then s.pc + 2 else s.pc) ∧ OnlyPc s t) ∧
    (∃ t, exec (.skipNotEqualRegister x y) s = .next t ∧ t.pc = (if s.getV x ≠ s.getV y then s.pc + 2 else s.pc) ∧ OnlyPc s t)

/-- R169, R171: the key skips take the keyboard's answer for the key numbered `V[x]`, whatever the answer is; above 15 they follow the
spec's three values of `KEY_INDEX_POLICY`. -/
def Obligations.KeySkips : Prop :=
  ∀ (x : Register) (s : State),
    (((s.getV x).toNat ≤ 0xF ∨ s.params.keyIndexPolicy = .maskLowNibble) →
      exec (.skipKeyPress x) s = .next
        { s with pc := if Config.keyDown s.draws ((s.getV x).setWidth 4) then s.pc + 2 else s.pc, draws := s.draws + 1 } ∧
      exec (.skipKeyNotPress x) s = .next
        { s with pc := if Config.keyDown s.draws ((s.getV x).setWidth 4) then s.pc else s.pc + 2, draws := s.draws + 1 }) ∧
    (0xF < (s.getV x).toNat → s.params.keyIndexPolicy = .notPressed →
      exec (.skipKeyPress x) s = .next { s with draws := s.draws + 1 } ∧
      exec (.skipKeyNotPress x) s = .next { s with pc := s.pc + 2, draws := s.draws + 1 }) ∧
    (0xF < (s.getV x).toNat → s.params.keyIndexPolicy = .refuse →
      exec (.skipKeyPress x) s = .refused (.keyIndex (s.getV x)) ∧
      exec (.skipKeyNotPress x) s = .refused (.keyIndex (s.getV x)))

/-- The model's choice for a key number above 15 (log entry 14): under `anyAnswer` exactly one of the two key skips skips. -/
def Obligations.KeyNumberAboveFifteenRuns : Prop :=
  ∀ (x : Register) (s : State), 0xF < (s.getV x).toNat → s.params.keyIndexPolicy = .anyAnswer →
    ∃ t u, exec (.skipKeyPress x) s = .next t ∧ exec (.skipKeyNotPress x) s = .next u ∧
      ((t.pc = s.pc + 2 ∧ u.pc = s.pc) ∨ (t.pc = s.pc ∧ u.pc = s.pc + 2)) ∧
      t = { s with pc := t.pc, draws := s.draws + 1 } ∧ u = { s with pc := u.pc, draws := s.draws + 1 }

/-! ## Register and arithmetic instructions -/

/-- R181, R183, R185: the loads and the flagless addition. -/
def Obligations.LoadsAndAddByte : Prop :=
  ∀ (x y : Register) (kk : Byte) (s : State),
    (∃ t, exec (.loadByte x kk) s = .next t ∧ t.getV x = kk ∧ SameVBut [x] s t ∧ OnlyV s t) ∧
    (∃ t, exec (.addByte x kk) s = .next t ∧ (t.getV x).toNat = ((s.getV x).toNat + kk.toNat) % 256 ∧ SameVBut [x] s t ∧ OnlyV s t) ∧
    (∃ t, exec (.loadRegister x y) s = .next t ∧ t.getV x = s.getV y ∧ SameVBut [x] s t ∧ OnlyV s t)

/-- R187, R189, R191: the logic instructions under both values of `LOGIC_RESETS_VF`, default `false`. -/
def Obligations.LogicInstructions : Prop :=
  State.reset.params.logicResetsVF = false ∧
  ∀ (x y : Register) (s : State) (i : Instr) (result : Byte),
    (i, result) ∈ [(.orRegister x y, s.getV x ||| s.getV y), (.andRegister x y, s.getV x &&& s.getV y),
      (.xorRegister x y, s.getV x ^^^ s.getV y)] →
    ∃ t, exec i s = .next t ∧ OnlyV s t ∧
      (s.params.logicResetsVF = false → t.getV x = result ∧ SameVBut [x] s t) ∧
      (s.params.logicResetsVF = true → t.getV 0xF = 0 ∧ (x ≠ 0xF → t.getV x = result) ∧ SameVBut [x, 0xF] s t)

/-- R193: addition modulo 256, then the carry in `VF`, which overwrites a sum written there. -/
def Obligations.AddRegisterSetsCarry : Prop :=
  ∀ (x y : Register) (s : State), ∃ t, exec (.addRegister x y) s = .next t ∧
    (x ≠ 0xF → (t.getV x).toNat = ((s.getV x).toNat + (s.getV y).toNat) % 256) ∧
    t.getV 0xF = (if (s.getV x).toNat + (s.getV y).toNat > 255 then 0x01 else 0x00) ∧
    SameVBut [x, 0xF] s t ∧ OnlyV s t

/-- R195, R199: the two subtractions modulo 256, then "no borrow" in `VF`, 1 on equal operands. -/
def Obligations.SubtractionsSetNoBorrow : Prop :=
  ∀ (x y : Register) (s : State),
    (∃ t, exec (.subRegister x y) s = .next t ∧
      (x ≠ 0xF → ((t.getV x).toNat : Int) = ((s.getV x).toNat - (s.getV y).toNat : Int) % 256) ∧
      t.getV 0xF = (if (s.getV x).toNat ≥ (s.getV y).toNat then 0x01 else 0x00) ∧ SameVBut [x, 0xF] s t ∧ OnlyV s t) ∧
    (∃ t, exec (.subNRegister x y) s = .next t ∧
      (x ≠ 0xF → ((t.getV x).toNat : Int) = ((s.getV y).toNat - (s.getV x).toNat : Int) % 256) ∧
      t.getV 0xF = (if (s.getV y).toNat ≥ (s.getV x).toNat then 0x01 else 0x00) ∧ SameVBut [x, 0xF] s t ∧ OnlyV s t)

/-- R197, R201: the shifts by one, with the bit shifted out in `VF`; the source by `SHIFT_USES_VY`, default `false`. -/
def Obligations.ShiftsSetTheBitShiftedOut : Prop :=
  State.reset.params.shiftUsesVy = false ∧
  ∀ (x y : Register) (s : State) (src : Byte), src = (if s.params.shiftUsesVy then s.getV y else s.getV x) →
    (∃ t, exec (.shiftRight x y) s = .next t ∧ (x ≠ 0xF → (t.getV x).toNat = src.toNat / 2) ∧
      (t.getV 0xF).toNat = src.toNat % 2 ∧ SameVBut [x, 0xF] s t ∧ OnlyV s t) ∧
    (∃ t, exec (.shiftLeft x y) s = .next t ∧ (x ≠ 0xF → (t.getV x).toNat = 2 * src.toNat % 256) ∧
      (t.getV 0xF).toNat = src.toNat / 128 ∧ SameVBut [x, 0xF] s t ∧ OnlyV s t)

/-- Decision D32: `Random` writes a drawn byte masked with `kk`, whatever the draw. R203 gives the corner cases alone and no
pseudocode; the masking is the model's deduction from both (log entry 5). -/
def Obligations.RandomIsMasked : Prop :=
  ∀ (x : Register) (kk : Byte) (s : State), ∃ t, exec (.random x kk) s = .next t ∧
    t.getV x = Config.randomByte s.draws &&& kk ∧ t.getV x &&& ~~~kk = 0 ∧ (kk = 0x00 → t.getV x = 0x00) ∧
    (kk = 0xFF → t.getV x = Config.randomByte s.draws) ∧ SameVBut [x] s t ∧
    t = { s with v := t.v, draws := s.draws + 1 } ∧ SameBytes s t

/-! ## Index, memory and sprite instructions -/

/-- R211, R215: the writes of `I`; `VF` under both values of `ADDINDEX_SETS_VF`, default `false`. -/
def Obligations.IndexWrites : Prop :=
  State.reset.params.addindexSetsVF = false ∧
  ∀ (nnn : Address) (x : Register) (s : State),
    (∃ t, exec (.loadIndex nnn) s = .next t ∧ t.i.toNat = nnn.toNat ∧ t = { s with i := t.i } ∧ SameBytes s t) ∧
    (∃ t, exec (.addIndex x) s = .next t ∧ t.i.toNat = (s.i.toNat + (s.getV x).toNat) % 65536 ∧
      (s.params.addindexSetsVF = false → t.v = s.v) ∧
      (s.params.addindexSetsVF = true →
        t.getV 0xF = (if s.i.toNat + (s.getV x).toNat > 0xFFF then 0x01 else 0x00) ∧ SameVBut [0xF] s t) ∧
      t = { s with i := t.i, v := t.v } ∧ SameBytes s t)

/-- R217: `LoadFont` of a digit. -/
def Obligations.LoadFontOfADigit : Prop :=
  ∀ (x : Register) (s : State), (s.getV x).toNat ≤ 0xF →
    ∃ t, exec (.loadFont x) s = .next t ∧ t.i.toNat = (s.params.fontBase.toNat + 5 * (s.getV x).toNat) % 65536 ∧
      t = { s with i := t.i, draws := s.draws + 1 } ∧ SameBytes s t

/-- The model's choice where the spec states no result (log entry 15): `LoadFont` of a value above 15 runs, and only `I` is open. -/
def Obligations.LoadFontAboveFifteenRuns : Prop :=
  ∀ (x : Register) (s : State), 0xF < (s.getV x).toNat →
    ∃ t, exec (.loadFont x) s = .next t ∧ t = { s with i := t.i, draws := s.draws + 1 } ∧ SameBytes s t

/-- R213: `DisplaySprite`. With every row in `MEM` the rows reach the renderer at the old coordinates and its answer reaches `VF`;
`VF = 0` for `n = 0`; a row above `0xFFF` raises before the renderer is called. That no call is made for `n = 0` is the model's
deduction from "draws nothing" (log entry 9). -/
def Obligations.DisplaySpriteDraws : Prop :=
  ∀ (x y : Register) (n : Nibble) (s : State),
    ((n.toNat = 0 ∨ s.ea (n.toNat - 1) ≤ 0xFFF) →
      ∃ t, exec (.displaySprite x y n) s = .next t ∧
        (n.toNat = 0 → t.getV 0xF = 0x00 ∧ t.rendered = s.rendered) ∧
        (n.toNat ≠ 0 →
          t.getV 0xF = (if Config.collision s.draws then 0x01 else 0x00) ∧
          t.rendered = .draw (s.getV x) (s.getV y) ((List.range n.toNat).map fun k => s.mem.read (s.ea k)) :: s.rendered) ∧
        SameVBut [0xF] s t ∧ t = { s with v := t.v, rendered := t.rendered, draws := t.draws } ∧ SameBytes s t) ∧
    (n.toNat ≠ 0 → 0xFFF < s.ea (n.toNat - 1) →
      ∃ t, exec (.displaySprite x y n) s = .next t ∧ OnlyReports s t (.execError (.memOutOfBounds (max (s.ea 0) 0x1000))))

/-- R219: `StoreBcd`, with its three bytes in `MEM` or not. -/
def Obligations.StoreBcdWritesDigits : Prop :=
  ∀ (x : Register) (s : State),
    (s.MemoryOk → s.ea 2 ≤ 0xFFF →
      ∃ t, exec (.storeBcd x) s = .next t ∧
        (t.mem.read (s.ea 0)).toNat = (s.getV x).toNat / 100 ∧
        (t.mem.read (s.ea 1)).toNat = (s.getV x).toNat / 10 % 10 ∧
        (t.mem.read (s.ea 2)).toNat = (s.getV x).toNat % 10 ∧
        (∀ a, a < s.ea 0 ∨ s.ea 2 < a → t.mem.read a = s.mem.read a) ∧ t = { s with mem := t.mem }) ∧
    (0xFFF < s.ea 2 →
      ∃ t, exec (.storeBcd x) s = .next t ∧ OnlyReports s t (.execError (.memOutOfBounds (max (s.ea 0) 0x1000))))

/-- R221: `StoreRegisters`, with every byte in `MEM` or not, under both values of `LOADSTORE_INCREMENTS_I`, default `false`. -/
def Obligations.StoreRegistersWritesTheRun : Prop :=
  State.reset.params.loadstoreIncrementsI = false ∧
  ∀ (x : Register) (s : State),
    (s.MemoryOk → s.ea x.toNat ≤ 0xFFF →
      ∃ t, exec (.storeRegisters x) s = .next t ∧
        (∀ r : Register, r.toNat ≤ x.toNat → t.mem.read (s.ea r.toNat) = s.getV r) ∧
        (∀ a, a < s.ea 0 ∨ s.ea x.toNat < a → t.mem.read a = s.mem.read a) ∧
        t.i.toNat = (if s.params.loadstoreIncrementsI then (s.i.toNat + x.toNat + 1) % 65536 else s.i.toNat) ∧
        t = { s with mem := t.mem, i := t.i }) ∧
    (0xFFF < s.ea x.toNat →
      ∃ t, exec (.storeRegisters x) s = .next t ∧ OnlyReports s t (.execError (.memOutOfBounds (max (s.ea 0) 0x1000))))

/-- R223: `LoadRegisters`, with every byte in `MEM` or not, under both values of `LOADSTORE_INCREMENTS_I`, default `false`. -/
def Obligations.LoadRegistersReadsTheRun : Prop :=
  State.reset.params.loadstoreIncrementsI = false ∧
  ∀ (x : Register) (s : State),
    (s.ea x.toNat ≤ 0xFFF →
      ∃ t, exec (.loadRegisters x) s = .next t ∧
        (∀ r : Register, r.toNat ≤ x.toNat → t.getV r = s.mem.read (s.ea r.toNat)) ∧
        (∀ r : Register, x.toNat < r.toNat → t.getV r = s.getV r) ∧
        t.i.toNat = (if s.params.loadstoreIncrementsI then (s.i.toNat + x.toNat + 1) % 65536 else s.i.toNat) ∧
        t = { s with v := t.v, i := t.i } ∧ SameBytes s t) ∧
    (0xFFF < s.ea x.toNat →
      ∃ t, exec (.loadRegisters x) s = .next t ∧ OnlyReports s t (.execError (.memOutOfBounds (max (s.ea 0) 0x1000))))

/-- R225, R36, R37, R247: an access above `0xFFF` raises `MemOutOfBounds` with the first such address, and nothing else happens. -/
def Obligations.AccessAboveMemoryRaises : Prop :=
  ∀ (i : Instr) (bytes : Nat) (s : State) (k : Nat),
    ((∃ x y n, i = .displaySprite x y n ∧ bytes = n.toNat) ∨ (∃ x, i = .storeBcd x ∧ bytes = 3) ∨
      (∃ x, i = .storeRegisters x ∧ bytes = x.toNat + 1) ∨ (∃ x, i = .loadRegisters x ∧ bytes = x.toNat + 1)) →
    k < bytes → 0xFFF < s.ea k → (∀ j, j < k → s.ea j ≤ 0xFFF) →
    ∃ t, exec i s = .next t ∧ OnlyReports s t (.execError (.memOutOfBounds (s.ea k)))

/-! ## Timer and key instructions -/

/-- R231, R235, R237: the timer instructions. -/
def Obligations.TimerInstructions : Prop :=
  ∀ (x : Register) (s : State),
    (∃ t, exec (.loadFromDelay x) s = .next t ∧ t.getV x = s.dt ∧ SameVBut [x] s t ∧ OnlyV s t) ∧
    (∃ t, exec (.loadDelay x) s = .next t ∧ t.dt = s.getV x ∧ t = { s with dt := t.dt } ∧ SameBytes s t) ∧
    (∃ t, exec (.loadSound x) s = .next t ∧ t.st = s.getV x ∧ t = { s with st := t.st } ∧ SameBytes s t)

/-- R233: one step of the wait for a key, whatever the keyboard answers. -/
def Obligations.LoadKeyPressWaitsOrTakesTheKey : Prop :=
  ∀ (x : Register) (s : State), ∃ t, exec (.loadKeyPress x) s = .next t ∧ SameBytes s t ∧
    match Config.keyPressed s.draws with
    | none => t.pc = s.pc - 2 ∧ t = { s with pc := t.pc, draws := t.draws }
    | some k => (t.getV x).toNat = k.toNat ∧ SameVBut [x] s t ∧ t = { s with v := t.v, draws := t.draws }
end

