-- ==== Sys2Proof/Laws/Decode.lean ====
section
/-! SUPPORT. Words as four nibbles, row matches nibble by nibble (`40_bitfield_extractor.md` R97, R98), and the fields of an encoded
word. -/

namespace Sys2Proof

/-! ## Extractors of bitwise combinations -/

@[simp] theorem fF000_and (a b : Word) : fF000 (a &&& b) = fF000 a &&& fF000 b := BitVec.extractLsb'_and
@[simp] theorem f0F00_and (a b : Word) : f0F00 (a &&& b) = f0F00 a &&& f0F00 b := BitVec.extractLsb'_and
@[simp] theorem f00F0_and (a b : Word) : f00F0 (a &&& b) = f00F0 a &&& f00F0 b := BitVec.extractLsb'_and
@[simp] theorem f000F_and (a b : Word) : f000F (a &&& b) = f000F a &&& f000F b := BitVec.extractLsb'_and
@[simp] theorem fF000_or (a b : Word) : fF000 (a ||| b) = fF000 a ||| fF000 b := BitVec.extractLsb'_or
@[simp] theorem f0FFF_or (a b : Word) : f0FFF (a ||| b) = f0FFF a ||| f0FFF b := BitVec.extractLsb'_or
@[simp] theorem f0F00_or (a b : Word) : f0F00 (a ||| b) = f0F00 a ||| f0F00 b := BitVec.extractLsb'_or
@[simp] theorem f00F0_or (a b : Word) : f00F0 (a ||| b) = f00F0 a ||| f00F0 b := BitVec.extractLsb'_or
@[simp] theorem f000F_or (a b : Word) : f000F (a ||| b) = f000F a ||| f000F b := BitVec.extractLsb'_or
@[simp] theorem f00FF_or (a b : Word) : f00FF (a ||| b) = f00FF a ||| f00FF b := BitVec.extractLsb'_or

/-! ## A word is its four nibbles -/

/-- Two words with the same nibbles are the same word (R98). -/
theorem word_ext {a b : Word} (h3 : fF000 a = fF000 b) (h2 : f0F00 a = f0F00 b) (h1 : f00F0 a = f00F0 b)
    (h0 : f000F a = f000F b) : a = b := by
  ext i hi
  have key : ∀ (s : Nat) (_ : BitVec.extractLsb' s 4 a = BitVec.extractLsb' s 4 b) (j : Nat), j < 4 →
      a.getLsbD (s + j) = b.getLsbD (s + j) := by
    intro s hs j hj
    have := congrArg (fun v => BitVec.getLsbD v j) hs
    simpa only [BitVec.getLsbD_extractLsb', hj, decide_true, Bool.true_and] using this
  simp only [← BitVec.getLsbD_eq_getElem]
  rcases (by omega : i < 4 ∨ 4 ≤ i ∧ i < 8 ∨ 8 ≤ i ∧ i < 12 ∨ 12 ≤ i) with h | h | h | h
  · simpa using key 0 h0 i h
  · simpa [Nat.add_sub_cancel' h.1] using key 4 h1 (i - 4) (by omega)
  · simpa [Nat.add_sub_cancel' h.1] using key 8 h2 (i - 8) (by omega)
  · simpa [Nat.add_sub_cancel' h] using key 12 h3 (i - 12) (by omega)

theorem word_ext_iff (a b : Word) :
    a = b ↔ fF000 a = fF000 b ∧ f0F00 a = f0F00 b ∧ f00F0 a = f00F0 b ∧ f000F a = f000F b :=
  ⟨fun h => h ▸ ⟨rfl, rfl, rfl, rfl⟩, fun ⟨h3, h2, h1, h0⟩ => word_ext h3 h2 h1 h0⟩

/-- A row matches a word iff it matches it in each of the four nibbles (R97, R103). -/
theorem Row.hit_iff (r : Row) (w : Word) :
    r.hit w = true ↔
      (fF000 w &&& fF000 r.mask = fF000 r.expected ∧ f0F00 w &&& f0F00 r.mask = f0F00 r.expected ∧
       f00F0 w &&& f00F0 r.mask = f00F0 r.expected ∧ f000F w &&& f000F r.mask = f000F r.expected) := by
  simp only [Row.hit, beq_iff_eq, word_ext_iff (w &&& r.mask), fF000_and, f0F00_and, f00F0_and, f000F_and]

/-- The low byte is its two nibbles (R98). -/
theorem f00FF_eq (w : Word) : f00FF w = f00F0 w ++ f000F w := by
  apply BitVec.eq_of_getLsbD_eq
  intro i hi
  simp only [f00FF, f00F0, f000F, BitVec.getLsbD_append, BitVec.getLsbD_extractLsb']
  rcases (by omega : i < 4 ∨ 4 ≤ i) with h | h
  · simp [h, hi]
  · simp [hi, Nat.not_lt.mpr h, Nat.add_sub_cancel' h, show i - 4 < 4 by omega]

/-- The address is its top nibble and the low byte (R98). -/
theorem f0FFF_eq (w : Word) : f0FFF w = f0F00 w ++ f00FF w := by
  apply BitVec.eq_of_getLsbD_eq
  intro i hi
  simp only [f0FFF, f0F00, f00FF, BitVec.getLsbD_append, BitVec.getLsbD_extractLsb']
  rcases (by omega : i < 8 ∨ 8 ≤ i) with h | h
  · simp [h, hi]
  · simp [hi, Nat.not_lt.mpr h, Nat.add_sub_cancel' h, show i - 8 < 4 by omega]

/-! ## The fields of an encoded word -/

@[simp] theorem fF000_nnn (a : Address) : fF000 (a.setWidth 16) = 0 := by
  apply BitVec.eq_of_getLsbD_eq
  intro i hi
  simp only [fF000, BitVec.getLsbD_extractLsb', BitVec.getLsbD_setWidth]
  simp

@[simp] theorem f0FFF_nnn (a : Address) : f0FFF (a.setWidth 16) = a := by
  apply BitVec.eq_of_getLsbD_eq
  intro i hi
  simp only [f0FFF, BitVec.getLsbD_extractLsb', BitVec.getLsbD_setWidth]
  simp [hi, show i < 16 by omega]

@[simp] theorem fields_x (x : Register) :
    fF000 (x.setWidth 16 <<< 8) = 0 ∧ f0F00 (x.setWidth 16 <<< 8) = x ∧ f00F0 (x.setWidth 16 <<< 8) = 0 ∧
      f000F (x.setWidth 16 <<< 8) = 0 ∧ f00FF (x.setWidth 16 <<< 8) = 0 := by
  revert x; decide

@[simp] theorem fields_y (y : Register) :
    fF000 (y.setWidth 16 <<< 4) = 0 ∧ f0F00 (y.setWidth 16 <<< 4) = 0 ∧ f00F0 (y.setWidth 16 <<< 4) = y ∧
      f000F (y.setWidth 16 <<< 4) = 0 := by
  revert y; decide

@[simp] theorem fields_n (n : Nibble) :
    fF000 (n.setWidth 16) = 0 ∧ f0F00 (n.setWidth 16) = 0 ∧ f00F0 (n.setWidth 16) = 0 ∧ f000F (n.setWidth 16) = n := by
  revert n; decide

@[simp] theorem fields_kk (kk : Byte) :
    fF000 (kk.setWidth 16) = 0 ∧ f0F00 (kk.setWidth 16) = 0 ∧ f00FF (kk.setWidth 16) = kk := by
  revert kk; decide

/-! ## Rows of a class -/

/-- Only rows of the word's own class can match it: every mask holds `0xF000` (`41_opcode_table_decoder.md` R102 (d)). -/
theorem class_of_hit {r : Row} (hr : r ∈ opcodeTable) {w : Word} (h : r.hit w = true) : fF000 r.expected = fF000 w := by
  have hm : ∀ r ∈ opcodeTable, fF000 r.mask = BitVec.allOnes 4 := by decide
  have := ((Row.hit_iff r w).mp h).1
  rw [hm r hr, BitVec.and_allOnes] at this
  exact this.symm

/-- The first match is the first match among the rows of the word's class. -/
theorem firstRow_eq_class (w : Word) :
    firstRow w = (opcodeTable.filter fun r => fF000 r.expected == fF000 w).find? (·.hit w) := by
  rw [List.find?_filter, firstRow]
  apply List.find?_congr
  intro r hr
  by_cases h : r.hit w = true
  · simp [h, class_of_hit hr h]
  · simp [h]

end Sys2Proof
end

