-- ==== Sys2Proof/Laws/Memory.lean ====
section
/-! SUPPORT. The laws of memory: read after write, the canonical form is kept, canonical memories that read alike are equal. -/

namespace Sys2Proof.Machine

/-! ## Reads -/

theorem Memory.read_cons (b a : Nat) (u : Byte) (m : Memory) :
    Memory.read ((b, u) :: m) a = if a = b then u else Memory.read m a := rfl

/-- Below the first address that may be listed, every read gives the unlisted byte. -/
theorem Memory.read_below {m : Memory} {lo a : Nat} (h : Memory.wfFrom lo m = true) (ha : a < lo) :
    Memory.read m a = Memory.unlisted := by
  induction m generalizing lo with
  | nil => rfl
  | cons c rest ih =>
    obtain ⟨b, u⟩ := c
    simp only [Memory.wfFrom, Bool.and_eq_true, decide_eq_true_eq] at h
    rw [Memory.read_cons, if_neg (by omega)]
    exact ih h.2 (by omega)

/-- Above `0xFFF` nothing is listed. -/
theorem Memory.read_above {m : Memory} {lo a : Nat} (h : Memory.wfFrom lo m = true) (ha : 0xFFF < a) :
    Memory.read m a = Memory.unlisted := by
  induction m generalizing lo with
  | nil => rfl
  | cons c rest ih =>
    obtain ⟨b, u⟩ := c
    simp only [Memory.wfFrom, Bool.and_eq_true, decide_eq_true_eq] at h
    rw [Memory.read_cons, if_neg (by omega)]
    exact ih h.2

theorem Memory.read_consCell_ne {a b : Nat} (h : b ≠ a) (u : Byte) (m : Memory) :
    Memory.read (Memory.consCell a u m) b = Memory.read m b := by
  unfold Memory.consCell
  split
  · rfl
  · rw [Memory.read_cons, if_neg h]

/-- A write leaves every other cell alone, in any memory (R37). -/
theorem Memory.read_write_ne {a b : Nat} (h : b ≠ a) (m : Memory) (u : Byte) :
    Memory.read (Memory.write m a u) b = Memory.read m b := by
  induction m with
  | nil => exact Memory.read_consCell_ne h u []
  | cons c rest ih =>
    obtain ⟨k, w⟩ := c
    simp only [Memory.write]
    split
    · exact Memory.read_consCell_ne h u _
    · split
      · rename_i hk
        rw [Memory.read_consCell_ne h, Memory.read_cons, if_neg (by omega)]
      · rw [Memory.read_cons, Memory.read_cons, ih]

/-- The cell written reads as the value written (R37). -/
theorem Memory.read_write_same {m : Memory} {lo : Nat} (hm : Memory.wfFrom lo m = true) (a : Nat) (u : Byte) :
    Memory.read (Memory.write m a u) a = u := by
  induction m generalizing lo with
  | nil =>
    simp only [Memory.write, Memory.consCell]
    split
    · rename_i h; exact h.symm
    · rw [Memory.read_cons, if_pos rfl]
  | cons c rest ih =>
    obtain ⟨k, w⟩ := c
    have hm' := hm
    simp only [Memory.wfFrom, Bool.and_eq_true, decide_eq_true_eq] at hm'
    simp only [Memory.write, Memory.consCell]
    split
    · split
      · rename_i hlt hu
        rw [Memory.read_cons, if_neg (by omega), Memory.read_below hm'.2 (by omega), hu]
      · rw [Memory.read_cons, if_pos rfl]
    · split
      · split
        · rename_i _ hk hu
          rw [Memory.read_below hm'.2 (by omega), hu]
        · rw [Memory.read_cons, if_pos rfl]
      · rename_i hlt hk
        rw [Memory.read_cons, if_neg hk]
        exact ih hm'.2

/-- Read after write in a canonical memory. -/
theorem Memory.read_write {m : Memory} (hm : m.wf = true) (a b : Nat) (u : Byte) :
    Memory.read (Memory.write m a u) b = if b = a then u else Memory.read m b := by
  split
  · rename_i h; rw [h]; exact Memory.read_write_same hm a u
  · rename_i h; exact Memory.read_write_ne h m u

/-! ## The canonical form -/

theorem Memory.wfFrom_mono {m : Memory} {lo lo' : Nat} (h : Memory.wfFrom lo m = true) (hl : lo' ≤ lo) :
    Memory.wfFrom lo' m = true := by
  cases m with
  | nil => rfl
  | cons c rest =>
    obtain ⟨b, u⟩ := c
    simp only [Memory.wfFrom, Bool.and_eq_true, decide_eq_true_eq] at h ⊢
    exact ⟨⟨⟨by omega, h.1.1.2⟩, h.1.2⟩, h.2⟩

theorem Memory.wfFrom_consCell {m : Memory} {lo a : Nat} (u : Byte) (hm : Memory.wfFrom (a + 1) m = true) (hl : lo ≤ a)
    (ha : a ≤ 0xFFF) : Memory.wfFrom lo (Memory.consCell a u m) = true := by
  unfold Memory.consCell
  split
  · exact Memory.wfFrom_mono hm (by omega)
  · rename_i hu
    simp only [Memory.wfFrom, Bool.and_eq_true, decide_eq_true_eq]
    exact ⟨⟨⟨hl, ha⟩, hu⟩, hm⟩

theorem Memory.wfFrom_write {m : Memory} {lo a : Nat} (u : Byte) (hm : Memory.wfFrom lo m = true) (hl : lo ≤ a)
    (ha : a ≤ 0xFFF) : Memory.wfFrom lo (Memory.write m a u) = true := by
  induction m generalizing lo with
  | nil => exact Memory.wfFrom_consCell u rfl hl ha
  | cons c rest ih =>
    obtain ⟨k, w⟩ := c
    have hm' := hm
    simp only [Memory.wfFrom, Bool.and_eq_true, decide_eq_true_eq] at hm'
    simp only [Memory.write]
    split
    · refine Memory.wfFrom_consCell u ?_ hl ha
      simp only [Memory.wfFrom, Bool.and_eq_true, decide_eq_true_eq]
      exact ⟨⟨⟨by omega, hm'.1.1.2⟩, hm'.1.2⟩, hm'.2⟩
    · split
      · rename_i _ hk
        exact Memory.wfFrom_consCell u (hk ▸ hm'.2) hl ha
      · simp only [Memory.wfFrom, Bool.and_eq_true, decide_eq_true_eq]
        exact ⟨hm'.1, ih hm'.2 (by omega)⟩

/-- A write inside `MEM` keeps the canonical form (R38). -/
theorem Memory.wf_write {m : Memory} {a : Nat} (u : Byte) (hm : m.wf = true) (ha : a ≤ 0xFFF) :
    (Memory.write m a u).wf = true :=
  Memory.wfFrom_write u hm (Nat.zero_le a) ha

/-- A list of bytes written inside `MEM` keeps the canonical form (R38). -/
theorem Memory.wf_writeAll {m : Memory} {a : Nat} {us : List Byte} (hm : m.wf = true) (ha : a + us.length ≤ 0x1000) :
    (Memory.writeAll m a us).wf = true := by
  induction us generalizing m a with
  | nil => exact hm
  | cons u us ih =>
    simp only [List.length_cons] at ha
    exact ih (Memory.wf_write u hm (by omega)) (by omega)

/-! ## Runs of bytes -/

/-- Outside the run nothing changes, in any memory. -/
theorem Memory.read_writeAll_outside {a b : Nat} {us : List Byte} (h : b < a ∨ a + us.length ≤ b) (m : Memory) :
    Memory.read (Memory.writeAll m a us) b = Memory.read m b := by
  induction us generalizing m a with
  | nil => rfl
  | cons u us ih =>
    simp only [List.length_cons] at h
    rw [Memory.writeAll, ih (by omega), Memory.read_write_ne (by omega)]

/-- Inside the run the bytes written are read back. -/
theorem Memory.read_writeAll_inside {m : Memory} {a : Nat} {us : List Byte} (hm : m.wf = true)
    (ha : a + us.length ≤ 0x1000) (k : Nat) (hk : k < us.length) :
    Memory.read (Memory.writeAll m a us) (a + k) = us[k] := by
  induction us generalizing m a k with
  | nil => simp at hk
  | cons u us ih =>
    simp only [List.length_cons] at ha hk
    have hm' := Memory.wf_write (a := a) u hm (by omega)
    cases k with
    | zero =>
      have ho : a < a + 1 ∨ a + 1 + us.length ≤ a := .inl (Nat.lt_succ_self a)
      exact (Memory.read_writeAll_outside ho _).trans (Memory.read_write_same hm a u)
    | succ k =>
      have hi := ih (a := a + 1) hm' (by omega) k (by omega)
      rw [Memory.writeAll, show a + (k + 1) = a + 1 + k by omega, hi]
      rfl

/-! ## Extensionality -/

theorem Memory.ext_from {m n : Memory} {lo : Nat} (hm : Memory.wfFrom lo m = true) (hn : Memory.wfFrom lo n = true)
    (h : ∀ a, Memory.read m a = Memory.read n a) : m = n := by
  induction m generalizing n lo with
  | nil =>
    cases n with
    | nil => rfl
    | cons d rest =>
      obtain ⟨b, u⟩ := d
      simp only [Memory.wfFrom, Bool.and_eq_true, decide_eq_true_eq] at hn
      have := h b
      rw [Memory.read_cons, if_pos rfl] at this
      exact absurd this.symm hn.1.2
  | cons c rest ih =>
    obtain ⟨b, u⟩ := c
    have hm' := hm
    simp only [Memory.wfFrom, Bool.and_eq_true, decide_eq_true_eq] at hm'
    cases n with
    | nil =>
      have := h b
      rw [Memory.read_cons, if_pos rfl] at this
      exact absurd this hm'.1.2
    | cons d rest' =>
      obtain ⟨b', u'⟩ := d
      have hn' := hn
      simp only [Memory.wfFrom, Bool.and_eq_true, decide_eq_true_eq] at hn'
      have hb : b = b' := by
        rcases Nat.lt_trichotomy b b' with hlt | heq | hgt
        · have := h b
          rw [Memory.read_cons, if_pos rfl, Memory.read_cons, if_neg (by omega), Memory.read_below hn'.2 (by omega)] at this
          exact absurd this hm'.1.2
        · exact heq
        · have := h b'
          rw [Memory.read_cons, if_neg (by omega), Memory.read_below hm'.2 (by omega), Memory.read_cons, if_pos rfl] at this
          exact absurd this.symm hn'.1.2
      subst hb
      have hu : u = u' := by
        have := h b
        rwa [Memory.read_cons, if_pos rfl, Memory.read_cons, if_pos rfl] at this
      subst hu
      refine congrArg _ (ih hm'.2 hn'.2 fun a => ?_)
      by_cases ha : a = b
      · subst ha
        rw [Memory.read_below hm'.2 (by omega), Memory.read_below hn'.2 (by omega)]
      · have := h a
        rwa [Memory.read_cons, if_neg ha, Memory.read_cons, if_neg ha] at this

/-- Canonical memories that read alike are the same data. -/
theorem Memory.ext_of_read {m n : Memory} (hm : m.wf = true) (hn : n.wf = true)
    (h : ∀ a, Memory.read m a = Memory.read n a) : m = n :=
  Memory.ext_from hm hn h

/-- The memory at reset is in canonical form (R42). -/
theorem Memory.wf_reset : State.reset.mem.wf = true := rfl

end Sys2Proof.Machine
end

