-- ==== Sys2Proof/Laws/State.lean ====
section
/-! SUPPORT. One lemma per field per named update of State, true by `rfl`, so that no proof unfolds a record update. -/

namespace Sys2Proof.Machine

variable (s : State)

/-! ### setV -/

@[simp] theorem State.setV_mem (x : Register) (u : Byte) : (s.setV x u).mem = s.mem := rfl
@[simp] theorem State.setV_v (x : Register) (u : Byte) : (s.setV x u).v = s.v.set x.toNat u x.isLt := rfl
@[simp] theorem State.setV_i (x : Register) (u : Byte) : (s.setV x u).i = s.i := rfl
@[simp] theorem State.setV_pc (x : Register) (u : Byte) : (s.setV x u).pc = s.pc := rfl
@[simp] theorem State.setV_stack (x : Register) (u : Byte) : (s.setV x u).stack = s.stack := rfl
@[simp] theorem State.setV_sp (x : Register) (u : Byte) : (s.setV x u).sp = s.sp := rfl
@[simp] theorem State.setV_dt (x : Register) (u : Byte) : (s.setV x u).dt = s.dt := rfl
@[simp] theorem State.setV_st (x : Register) (u : Byte) : (s.setV x u).st = s.st := rfl
@[simp] theorem State.setV_halt (x : Register) (u : Byte) : (s.setV x u).halt = s.halt := rfl
@[simp] theorem State.setV_status (x : Register) (u : Byte) : (s.setV x u).status = s.status := rfl
@[simp] theorem State.setV_stopped (x : Register) (u : Byte) : (s.setV x u).stopped = s.stopped := rfl
@[simp] theorem State.setV_log (x : Register) (u : Byte) : (s.setV x u).log = s.log := rfl
@[simp] theorem State.setV_rendered (x : Register) (u : Byte) : (s.setV x u).rendered = s.rendered := rfl
@[simp] theorem State.setV_draws (x : Register) (u : Byte) : (s.setV x u).draws = s.draws := rfl
@[simp] theorem State.setV_params (x : Register) (u : Byte) : (s.setV x u).params = s.params := rfl

/-! ### setI -/

@[simp] theorem State.setI_mem (a : Word) : (s.setI a).mem = s.mem := rfl
@[simp] theorem State.setI_v (a : Word) : (s.setI a).v = s.v := rfl
@[simp] theorem State.setI_i (a : Word) : (s.setI a).i = a := rfl
@[simp] theorem State.setI_pc (a : Word) : (s.setI a).pc = s.pc := rfl
@[simp] theorem State.setI_stack (a : Word) : (s.setI a).stack = s.stack := rfl
@[simp] theorem State.setI_sp (a : Word) : (s.setI a).sp = s.sp := rfl
@[simp] theorem State.setI_dt (a : Word) : (s.setI a).dt = s.dt := rfl
@[simp] theorem State.setI_st (a : Word) : (s.setI a).st = s.st := rfl
@[simp] theorem State.setI_halt (a : Word) : (s.setI a).halt = s.halt := rfl
@[simp] theorem State.setI_status (a : Word) : (s.setI a).status = s.status := rfl
@[simp] theorem State.setI_stopped (a : Word) : (s.setI a).stopped = s.stopped := rfl
@[simp] theorem State.setI_log (a : Word) : (s.setI a).log = s.log := rfl
@[simp] theorem State.setI_rendered (a : Word) : (s.setI a).rendered = s.rendered := rfl
@[simp] theorem State.setI_draws (a : Word) : (s.setI a).draws = s.draws := rfl
@[simp] theorem State.setI_params (a : Word) : (s.setI a).params = s.params := rfl
@[simp] theorem State.setI_getV (a : Word) (r : Register) : (s.setI a).getV r = s.getV r := rfl

/-! ### setPc -/

@[simp] theorem State.setPc_mem (a : Word) : (s.setPc a).mem = s.mem := rfl
@[simp] theorem State.setPc_v (a : Word) : (s.setPc a).v = s.v := rfl
@[simp] theorem State.setPc_i (a : Word) : (s.setPc a).i = s.i := rfl
@[simp] theorem State.setPc_pc (a : Word) : (s.setPc a).pc = a := rfl
@[simp] theorem State.setPc_stack (a : Word) : (s.setPc a).stack = s.stack := rfl
@[simp] theorem State.setPc_sp (a : Word) : (s.setPc a).sp = s.sp := rfl
@[simp] theorem State.setPc_dt (a : Word) : (s.setPc a).dt = s.dt := rfl
@[simp] theorem State.setPc_st (a : Word) : (s.setPc a).st = s.st := rfl
@[simp] theorem State.setPc_halt (a : Word) : (s.setPc a).halt = s.halt := rfl
@[simp] theorem State.setPc_status (a : Word) : (s.setPc a).status = s.status := rfl
@[simp] theorem State.setPc_stopped (a : Word) : (s.setPc a).stopped = s.stopped := rfl
@[simp] theorem State.setPc_log (a : Word) : (s.setPc a).log = s.log := rfl
@[simp] theorem State.setPc_rendered (a : Word) : (s.setPc a).rendered = s.rendered := rfl
@[simp] theorem State.setPc_draws (a : Word) : (s.setPc a).draws = s.draws := rfl
@[simp] theorem State.setPc_params (a : Word) : (s.setPc a).params = s.params := rfl
@[simp] theorem State.setPc_getV (a : Word) (r : Register) : (s.setPc a).getV r = s.getV r := rfl

/-! ### setDt -/

@[simp] theorem State.setDt_mem (u : Byte) : (s.setDt u).mem = s.mem := rfl
@[simp] theorem State.setDt_v (u : Byte) : (s.setDt u).v = s.v := rfl
@[simp] theorem State.setDt_i (u : Byte) : (s.setDt u).i = s.i := rfl
@[simp] theorem State.setDt_pc (u : Byte) : (s.setDt u).pc = s.pc := rfl
@[simp] theorem State.setDt_stack (u : Byte) : (s.setDt u).stack = s.stack := rfl
@[simp] theorem State.setDt_sp (u : Byte) : (s.setDt u).sp = s.sp := rfl
@[simp] theorem State.setDt_dt (u : Byte) : (s.setDt u).dt = u := rfl
@[simp] theorem State.setDt_st (u : Byte) : (s.setDt u).st = s.st := rfl
@[simp] theorem State.setDt_halt (u : Byte) : (s.setDt u).halt = s.halt := rfl
@[simp] theorem State.setDt_status (u : Byte) : (s.setDt u).status = s.status := rfl
@[simp] theorem State.setDt_stopped (u : Byte) : (s.setDt u).stopped = s.stopped := rfl
@[simp] theorem State.setDt_log (u : Byte) : (s.setDt u).log = s.log := rfl
@[simp] theorem State.setDt_rendered (u : Byte) : (s.setDt u).rendered = s.rendered := rfl
@[simp] theorem State.setDt_draws (u : Byte) : (s.setDt u).draws = s.draws := rfl
@[simp] theorem State.setDt_params (u : Byte) : (s.setDt u).params = s.params := rfl
@[simp] theorem State.setDt_getV (u : Byte) (r : Register) : (s.setDt u).getV r = s.getV r := rfl

/-! ### setSt -/

@[simp] theorem State.setSt_mem (u : Byte) : (s.setSt u).mem = s.mem := rfl
@[simp] theorem State.setSt_v (u : Byte) : (s.setSt u).v = s.v := rfl
@[simp] theorem State.setSt_i (u : Byte) : (s.setSt u).i = s.i := rfl
@[simp] theorem State.setSt_pc (u : Byte) : (s.setSt u).pc = s.pc := rfl
@[simp] theorem State.setSt_stack (u : Byte) : (s.setSt u).stack = s.stack := rfl
@[simp] theorem State.setSt_sp (u : Byte) : (s.setSt u).sp = s.sp := rfl
@[simp] theorem State.setSt_dt (u : Byte) : (s.setSt u).dt = s.dt := rfl
@[simp] theorem State.setSt_st (u : Byte) : (s.setSt u).st = u := rfl
@[simp] theorem State.setSt_halt (u : Byte) : (s.setSt u).halt = s.halt := rfl
@[simp] theorem State.setSt_status (u : Byte) : (s.setSt u).status = s.status := rfl
@[simp] theorem State.setSt_stopped (u : Byte) : (s.setSt u).stopped = s.stopped := rfl
@[simp] theorem State.setSt_log (u : Byte) : (s.setSt u).log = s.log := rfl
@[simp] theorem State.setSt_rendered (u : Byte) : (s.setSt u).rendered = s.rendered := rfl
@[simp] theorem State.setSt_draws (u : Byte) : (s.setSt u).draws = s.draws := rfl
@[simp] theorem State.setSt_params (u : Byte) : (s.setSt u).params = s.params := rfl
@[simp] theorem State.setSt_getV (u : Byte) (r : Register) : (s.setSt u).getV r = s.getV r := rfl

/-! ### setMem -/

@[simp] theorem State.setMem_mem (a : Nat) (u : Byte) : (s.setMem a u).mem = s.mem.write a u := rfl
@[simp] theorem State.setMem_v (a : Nat) (u : Byte) : (s.setMem a u).v = s.v := rfl
@[simp] theorem State.setMem_i (a : Nat) (u : Byte) : (s.setMem a u).i = s.i := rfl
@[simp] theorem State.setMem_pc (a : Nat) (u : Byte) : (s.setMem a u).pc = s.pc := rfl
@[simp] theorem State.setMem_stack (a : Nat) (u : Byte) : (s.setMem a u).stack = s.stack := rfl
@[simp] theorem State.setMem_sp (a : Nat) (u : Byte) : (s.setMem a u).sp = s.sp := rfl
@[simp] theorem State.setMem_dt (a : Nat) (u : Byte) : (s.setMem a u).dt = s.dt := rfl
@[simp] theorem State.setMem_st (a : Nat) (u : Byte) : (s.setMem a u).st = s.st := rfl
@[simp] theorem State.setMem_halt (a : Nat) (u : Byte) : (s.setMem a u).halt = s.halt := rfl
@[simp] theorem State.setMem_status (a : Nat) (u : Byte) : (s.setMem a u).status = s.status := rfl
@[simp] theorem State.setMem_stopped (a : Nat) (u : Byte) : (s.setMem a u).stopped = s.stopped := rfl
@[simp] theorem State.setMem_log (a : Nat) (u : Byte) : (s.setMem a u).log = s.log := rfl
@[simp] theorem State.setMem_rendered (a : Nat) (u : Byte) : (s.setMem a u).rendered = s.rendered := rfl
@[simp] theorem State.setMem_draws (a : Nat) (u : Byte) : (s.setMem a u).draws = s.draws := rfl
@[simp] theorem State.setMem_params (a : Nat) (u : Byte) : (s.setMem a u).params = s.params := rfl
@[simp] theorem State.setMem_getV (a : Nat) (u : Byte) (r : Register) : (s.setMem a u).getV r = s.getV r := rfl

/-! ### raise -/

@[simp] theorem State.raise_mem (res : Status) (e : Bool) : (s.raise res e).mem = s.mem := rfl
@[simp] theorem State.raise_v (res : Status) (e : Bool) : (s.raise res e).v = s.v := rfl
@[simp] theorem State.raise_i (res : Status) (e : Bool) : (s.raise res e).i = s.i := rfl
@[simp] theorem State.raise_pc (res : Status) (e : Bool) : (s.raise res e).pc = s.pc := rfl
@[simp] theorem State.raise_stack (res : Status) (e : Bool) : (s.raise res e).stack = s.stack := rfl
@[simp] theorem State.raise_sp (res : Status) (e : Bool) : (s.raise res e).sp = s.sp := rfl
@[simp] theorem State.raise_dt (res : Status) (e : Bool) : (s.raise res e).dt = s.dt := rfl
@[simp] theorem State.raise_st (res : Status) (e : Bool) : (s.raise res e).st = s.st := rfl
@[simp] theorem State.raise_halt (res : Status) (e : Bool) : (s.raise res e).halt = s.halt := rfl
@[simp] theorem State.raise_status (res : Status) (e : Bool) : (s.raise res e).status = res := rfl
@[simp] theorem State.raise_stopped (res : Status) (e : Bool) : (s.raise res e).stopped = (s.stopped || e) := rfl
@[simp] theorem State.raise_log (res : Status) (e : Bool) : (s.raise res e).log = s.log := rfl
@[simp] theorem State.raise_rendered (res : Status) (e : Bool) : (s.raise res e).rendered = s.rendered := rfl
@[simp] theorem State.raise_draws (res : Status) (e : Bool) : (s.raise res e).draws = s.draws := rfl
@[simp] theorem State.raise_params (res : Status) (e : Bool) : (s.raise res e).params = s.params := rfl
@[simp] theorem State.raise_getV (res : Status) (e : Bool) (r : Register) : (s.raise res e).getV r = s.getV r := rfl

/-! ### raiseExec -/

@[simp] theorem State.raiseExec_mem (e : ExecError) : (s.raiseExec e).mem = s.mem := rfl
@[simp] theorem State.raiseExec_v (e : ExecError) : (s.raiseExec e).v = s.v := rfl
@[simp] theorem State.raiseExec_i (e : ExecError) : (s.raiseExec e).i = s.i := rfl
@[simp] theorem State.raiseExec_pc (e : ExecError) : (s.raiseExec e).pc = s.pc := rfl
@[simp] theorem State.raiseExec_stack (e : ExecError) : (s.raiseExec e).stack = s.stack := rfl
@[simp] theorem State.raiseExec_sp (e : ExecError) : (s.raiseExec e).sp = s.sp := rfl
@[simp] theorem State.raiseExec_dt (e : ExecError) : (s.raiseExec e).dt = s.dt := rfl
@[simp] theorem State.raiseExec_st (e : ExecError) : (s.raiseExec e).st = s.st := rfl
@[simp] theorem State.raiseExec_halt (e : ExecError) : (s.raiseExec e).halt = s.halt := rfl
@[simp] theorem State.raiseExec_status (e : ExecError) : (s.raiseExec e).status = .execError e := rfl
@[simp] theorem State.raiseExec_stopped (e : ExecError) : (s.raiseExec e).stopped = (s.stopped || s.params.errorPolicy == .halt) := rfl
@[simp] theorem State.raiseExec_log (e : ExecError) : (s.raiseExec e).log = s.log := rfl
@[simp] theorem State.raiseExec_rendered (e : ExecError) : (s.raiseExec e).rendered = s.rendered := rfl
@[simp] theorem State.raiseExec_draws (e : ExecError) : (s.raiseExec e).draws = s.draws := rfl
@[simp] theorem State.raiseExec_params (e : ExecError) : (s.raiseExec e).params = s.params := rfl
@[simp] theorem State.raiseExec_getV (e : ExecError) (r : Register) : (s.raiseExec e).getV r = s.getV r := rfl

/-! ### raiseFetch -/

@[simp] theorem State.raiseFetch_mem : s.raiseFetch.mem = s.mem := rfl
@[simp] theorem State.raiseFetch_v : s.raiseFetch.v = s.v := rfl
@[simp] theorem State.raiseFetch_i : s.raiseFetch.i = s.i := rfl
@[simp] theorem State.raiseFetch_pc : s.raiseFetch.pc = s.pc := rfl
@[simp] theorem State.raiseFetch_stack : s.raiseFetch.stack = s.stack := rfl
@[simp] theorem State.raiseFetch_sp : s.raiseFetch.sp = s.sp := rfl
@[simp] theorem State.raiseFetch_dt : s.raiseFetch.dt = s.dt := rfl
@[simp] theorem State.raiseFetch_st : s.raiseFetch.st = s.st := rfl
@[simp] theorem State.raiseFetch_halt : s.raiseFetch.halt = true := rfl
@[simp] theorem State.raiseFetch_status : s.raiseFetch.status = .fetchOutOfBounds s.pc := rfl
@[simp] theorem State.raiseFetch_stopped : s.raiseFetch.stopped = s.stopped := Bool.or_false _
@[simp] theorem State.raiseFetch_log : s.raiseFetch.log = s.log := rfl
@[simp] theorem State.raiseFetch_rendered : s.raiseFetch.rendered = s.rendered := rfl
@[simp] theorem State.raiseFetch_draws : s.raiseFetch.draws = s.draws := rfl
@[simp] theorem State.raiseFetch_params : s.raiseFetch.params = s.params := rfl
@[simp] theorem State.raiseFetch_getV (r : Register) : s.raiseFetch.getV r = s.getV r := rfl

/-! ### draw -/

@[simp] theorem State.draw_mem : s.draw.mem = s.mem := rfl
@[simp] theorem State.draw_v : s.draw.v = s.v := rfl
@[simp] theorem State.draw_i : s.draw.i = s.i := rfl
@[simp] theorem State.draw_pc : s.draw.pc = s.pc := rfl
@[simp] theorem State.draw_stack : s.draw.stack = s.stack := rfl
@[simp] theorem State.draw_sp : s.draw.sp = s.sp := rfl
@[simp] theorem State.draw_dt : s.draw.dt = s.dt := rfl
@[simp] theorem State.draw_st : s.draw.st = s.st := rfl
@[simp] theorem State.draw_halt : s.draw.halt = s.halt := rfl
@[simp] theorem State.draw_status : s.draw.status = s.status := rfl
@[simp] theorem State.draw_stopped : s.draw.stopped = s.stopped := rfl
@[simp] theorem State.draw_log : s.draw.log = s.log := rfl
@[simp] theorem State.draw_rendered : s.draw.rendered = s.rendered := rfl
@[simp] theorem State.draw_draws : s.draw.draws = s.draws + 1 := rfl
@[simp] theorem State.draw_params : s.draw.params = s.params := rfl
@[simp] theorem State.draw_getV (r : Register) : s.draw.getV r = s.getV r := rfl

/-! ### callRenderer -/

@[simp] theorem State.callRenderer_mem (c : RendererCall) : (s.callRenderer c).mem = s.mem := rfl
@[simp] theorem State.callRenderer_v (c : RendererCall) : (s.callRenderer c).v = s.v := rfl
@[simp] theorem State.callRenderer_i (c : RendererCall) : (s.callRenderer c).i = s.i := rfl
@[simp] theorem State.callRenderer_pc (c : RendererCall) : (s.callRenderer c).pc = s.pc := rfl
@[simp] theorem State.callRenderer_stack (c : RendererCall) : (s.callRenderer c).stack = s.stack := rfl
@[simp] theorem State.callRenderer_sp (c : RendererCall) : (s.callRenderer c).sp = s.sp := rfl
@[simp] theorem State.callRenderer_dt (c : RendererCall) : (s.callRenderer c).dt = s.dt := rfl
@[simp] theorem State.callRenderer_st (c : RendererCall) : (s.callRenderer c).st = s.st := rfl
@[simp] theorem State.callRenderer_halt (c : RendererCall) : (s.callRenderer c).halt = s.halt := rfl
@[simp] theorem State.callRenderer_status (c : RendererCall) : (s.callRenderer c).status = s.status := rfl
@[simp] theorem State.callRenderer_stopped (c : RendererCall) : (s.callRenderer c).stopped = s.stopped := rfl
@[simp] theorem State.callRenderer_log (c : RendererCall) : (s.callRenderer c).log = s.log := rfl
@[simp] theorem State.callRenderer_rendered (c : RendererCall) : (s.callRenderer c).rendered = c :: s.rendered := rfl
@[simp] theorem State.callRenderer_draws (c : RendererCall) : (s.callRenderer c).draws = s.draws := rfl
@[simp] theorem State.callRenderer_params (c : RendererCall) : (s.callRenderer c).params = s.params := rfl
@[simp] theorem State.callRenderer_getV (c : RendererCall) (r : Register) : (s.callRenderer c).getV r = s.getV r := rfl

/-! ### tick -/

@[simp] theorem State.tick_mem : s.tick.mem = s.mem := rfl
@[simp] theorem State.tick_v : s.tick.v = s.v := rfl
@[simp] theorem State.tick_i : s.tick.i = s.i := rfl
@[simp] theorem State.tick_pc : s.tick.pc = s.pc := rfl
@[simp] theorem State.tick_stack : s.tick.stack = s.stack := rfl
@[simp] theorem State.tick_sp : s.tick.sp = s.sp := rfl
@[simp] theorem State.tick_dt : s.tick.dt = timerDown s.dt := rfl
@[simp] theorem State.tick_st : s.tick.st = timerDown s.st := rfl
@[simp] theorem State.tick_halt : s.tick.halt = s.halt := rfl
@[simp] theorem State.tick_status : s.tick.status = s.status := rfl
@[simp] theorem State.tick_stopped : s.tick.stopped = s.stopped := rfl
@[simp] theorem State.tick_log : s.tick.log = s.log := rfl
@[simp] theorem State.tick_rendered : s.tick.rendered = s.rendered := rfl
@[simp] theorem State.tick_draws : s.tick.draws = s.draws := rfl
@[simp] theorem State.tick_params : s.tick.params = s.params := rfl
@[simp] theorem State.tick_getV (r : Register) : s.tick.getV r = s.getV r := rfl

/-! ### elapse -/

@[simp] theorem State.elapse_mem : s.elapse.mem = s.mem := rfl
@[simp] theorem State.elapse_v : s.elapse.v = s.v := rfl
@[simp] theorem State.elapse_i : s.elapse.i = s.i := rfl
@[simp] theorem State.elapse_pc : s.elapse.pc = s.pc := rfl
@[simp] theorem State.elapse_stack : s.elapse.stack = s.stack := rfl
@[simp] theorem State.elapse_sp : s.elapse.sp = s.sp := rfl
@[simp] theorem State.elapse_dt : s.elapse.dt = timerAfter s.ticksDue s.dt := rfl
@[simp] theorem State.elapse_st : s.elapse.st = timerAfter s.ticksDue s.st := rfl
@[simp] theorem State.elapse_halt : s.elapse.halt = s.halt := rfl
@[simp] theorem State.elapse_status : s.elapse.status = s.status := rfl
@[simp] theorem State.elapse_stopped : s.elapse.stopped = s.stopped := rfl
@[simp] theorem State.elapse_log : s.elapse.log = s.log := rfl
@[simp] theorem State.elapse_rendered : s.elapse.rendered = s.rendered := rfl
@[simp] theorem State.elapse_draws : s.elapse.draws = s.draws + 1 := rfl
@[simp] theorem State.elapse_params : s.elapse.params = s.params := rfl
@[simp] theorem State.elapse_getV (r : Register) : s.elapse.getV r = s.getV r := rfl

/-! ### skipIf -/

@[simp] theorem State.skipIf_mem (c : Bool) : (s.skipIf c).mem = s.mem := rfl
@[simp] theorem State.skipIf_v (c : Bool) : (s.skipIf c).v = s.v := rfl
@[simp] theorem State.skipIf_i (c : Bool) : (s.skipIf c).i = s.i := rfl
@[simp] theorem State.skipIf_pc (c : Bool) : (s.skipIf c).pc = if c then s.pc + 2 else s.pc := rfl
@[simp] theorem State.skipIf_stack (c : Bool) : (s.skipIf c).stack = s.stack := rfl
@[simp] theorem State.skipIf_sp (c : Bool) : (s.skipIf c).sp = s.sp := rfl
@[simp] theorem State.skipIf_dt (c : Bool) : (s.skipIf c).dt = s.dt := rfl
@[simp] theorem State.skipIf_st (c : Bool) : (s.skipIf c).st = s.st := rfl
@[simp] theorem State.skipIf_halt (c : Bool) : (s.skipIf c).halt = s.halt := rfl
@[simp] theorem State.skipIf_status (c : Bool) : (s.skipIf c).status = s.status := rfl
@[simp] theorem State.skipIf_stopped (c : Bool) : (s.skipIf c).stopped = s.stopped := rfl
@[simp] theorem State.skipIf_log (c : Bool) : (s.skipIf c).log = s.log := rfl
@[simp] theorem State.skipIf_rendered (c : Bool) : (s.skipIf c).rendered = s.rendered := rfl
@[simp] theorem State.skipIf_draws (c : Bool) : (s.skipIf c).draws = s.draws := rfl
@[simp] theorem State.skipIf_params (c : Bool) : (s.skipIf c).params = s.params := rfl
@[simp] theorem State.skipIf_getV (c : Bool) (r : Register) : (s.skipIf c).getV r = s.getV r := rfl

/-! ### advanceI -/

@[simp] theorem State.advanceI_mem (x : Register) : (s.advanceI x).mem = s.mem := rfl
@[simp] theorem State.advanceI_v (x : Register) : (s.advanceI x).v = s.v := rfl
@[simp] theorem State.advanceI_i (x : Register) : (s.advanceI x).i = if s.params.loadstoreIncrementsI then s.i + x.setWidth 16 + 1 else s.i := rfl
@[simp] theorem State.advanceI_pc (x : Register) : (s.advanceI x).pc = s.pc := rfl
@[simp] theorem State.advanceI_stack (x : Register) : (s.advanceI x).stack = s.stack := rfl
@[simp] theorem State.advanceI_sp (x : Register) : (s.advanceI x).sp = s.sp := rfl
@[simp] theorem State.advanceI_dt (x : Register) : (s.advanceI x).dt = s.dt := rfl
@[simp] theorem State.advanceI_st (x : Register) : (s.advanceI x).st = s.st := rfl
@[simp] theorem State.advanceI_halt (x : Register) : (s.advanceI x).halt = s.halt := rfl
@[simp] theorem State.advanceI_status (x : Register) : (s.advanceI x).status = s.status := rfl
@[simp] theorem State.advanceI_stopped (x : Register) : (s.advanceI x).stopped = s.stopped := rfl
@[simp] theorem State.advanceI_log (x : Register) : (s.advanceI x).log = s.log := rfl
@[simp] theorem State.advanceI_rendered (x : Register) : (s.advanceI x).rendered = s.rendered := rfl
@[simp] theorem State.advanceI_draws (x : Register) : (s.advanceI x).draws = s.draws := rfl
@[simp] theorem State.advanceI_params (x : Register) : (s.advanceI x).params = s.params := rfl
@[simp] theorem State.advanceI_getV (x : Register) (r : Register) : (s.advanceI x).getV r = s.getV r := rfl

/-! ### advance -/

@[simp] theorem State.advance_mem (o : DecodeOutcome) : (s.advance o).mem = s.mem := rfl
@[simp] theorem State.advance_v (o : DecodeOutcome) : (s.advance o).v = s.v := rfl
@[simp] theorem State.advance_i (o : DecodeOutcome) : (s.advance o).i = s.i := rfl
@[simp] theorem State.advance_pc (o : DecodeOutcome) : (s.advance o).pc = s.pc + 2 := rfl
@[simp] theorem State.advance_stack (o : DecodeOutcome) : (s.advance o).stack = s.stack := rfl
@[simp] theorem State.advance_sp (o : DecodeOutcome) : (s.advance o).sp = s.sp := rfl
@[simp] theorem State.advance_dt (o : DecodeOutcome) : (s.advance o).dt = s.dt := rfl
@[simp] theorem State.advance_st (o : DecodeOutcome) : (s.advance o).st = s.st := rfl
@[simp] theorem State.advance_halt (o : DecodeOutcome) : (s.advance o).halt = s.halt := rfl
@[simp] theorem State.advance_status (o : DecodeOutcome) : (s.advance o).status = fetchedStatus o := rfl
@[simp] theorem State.advance_stopped (o : DecodeOutcome) : (s.advance o).stopped = s.stopped := rfl
@[simp] theorem State.advance_log (o : DecodeOutcome) : (s.advance o).log = s.log := rfl
@[simp] theorem State.advance_rendered (o : DecodeOutcome) : (s.advance o).rendered = s.rendered := rfl
@[simp] theorem State.advance_draws (o : DecodeOutcome) : (s.advance o).draws = s.draws := rfl
@[simp] theorem State.advance_params (o : DecodeOutcome) : (s.advance o).params = s.params := rfl
@[simp] theorem State.advance_getV (o : DecodeOutcome) (r : Register) : (s.advance o).getV r = s.getV r := rfl

/-! ### place -/

@[simp] theorem State.place_mem (a : Nat) (us : List Byte) : (s.place a us).mem = s.mem.writeAll a us := rfl
@[simp] theorem State.place_v (a : Nat) (us : List Byte) : (s.place a us).v = s.v := rfl
@[simp] theorem State.place_i (a : Nat) (us : List Byte) : (s.place a us).i = s.i := rfl
@[simp] theorem State.place_pc (a : Nat) (us : List Byte) : (s.place a us).pc = s.pc := rfl
@[simp] theorem State.place_stack (a : Nat) (us : List Byte) : (s.place a us).stack = s.stack := rfl
@[simp] theorem State.place_sp (a : Nat) (us : List Byte) : (s.place a us).sp = s.sp := rfl
@[simp] theorem State.place_dt (a : Nat) (us : List Byte) : (s.place a us).dt = s.dt := rfl
@[simp] theorem State.place_st (a : Nat) (us : List Byte) : (s.place a us).st = s.st := rfl
@[simp] theorem State.place_halt (a : Nat) (us : List Byte) : (s.place a us).halt = s.halt := rfl
@[simp] theorem State.place_status (a : Nat) (us : List Byte) : (s.place a us).status = s.status := rfl
@[simp] theorem State.place_stopped (a : Nat) (us : List Byte) : (s.place a us).stopped = s.stopped := rfl
@[simp] theorem State.place_log (a : Nat) (us : List Byte) : (s.place a us).log = s.log := rfl
@[simp] theorem State.place_rendered (a : Nat) (us : List Byte) : (s.place a us).rendered = s.rendered := rfl
@[simp] theorem State.place_draws (a : Nat) (us : List Byte) : (s.place a us).draws = s.draws := rfl
@[simp] theorem State.place_params (a : Nat) (us : List Byte) : (s.place a us).params = s.params := rfl
@[simp] theorem State.place_getV (a : Nat) (us : List Byte) (r : Register) : (s.place a us).getV r = s.getV r := rfl

/-! ### Register reads after a register write (R21, R23) -/

theorem State.getV_setV (x r : Register) (u : Byte) : (s.setV x u).getV r = if r = x then u else s.getV r := by
  simp only [State.setV, State.getV, Vector.getElem_set, BitVec.toNat_inj, eq_comm]

@[simp] theorem State.getV_setV_same (x : Register) (u : Byte) : (s.setV x u).getV x = u := by
  rw [State.getV_setV, if_pos rfl]

theorem State.getV_setV_ne {x r : Register} (h : r ≠ x) (u : Byte) : (s.setV x u).getV r = s.getV r := by
  rw [State.getV_setV, if_neg h]

theorem State.getV_setVF (r : Register) (u : Byte) : (s.setVF u).getV r = if r = 0xF then u else s.getV r :=
  State.getV_setV s 0xF r u

/-! ### setVF, logicVF and indexVF write `v` alone -/

@[simp] theorem State.setVF_mem (u : Byte) : (s.setVF u).mem = s.mem := rfl
@[simp] theorem State.setVF_i (u : Byte) : (s.setVF u).i = s.i := rfl
@[simp] theorem State.setVF_pc (u : Byte) : (s.setVF u).pc = s.pc := rfl
@[simp] theorem State.setVF_stack (u : Byte) : (s.setVF u).stack = s.stack := rfl
@[simp] theorem State.setVF_sp (u : Byte) : (s.setVF u).sp = s.sp := rfl
@[simp] theorem State.setVF_dt (u : Byte) : (s.setVF u).dt = s.dt := rfl
@[simp] theorem State.setVF_st (u : Byte) : (s.setVF u).st = s.st := rfl
@[simp] theorem State.setVF_halt (u : Byte) : (s.setVF u).halt = s.halt := rfl
@[simp] theorem State.setVF_status (u : Byte) : (s.setVF u).status = s.status := rfl
@[simp] theorem State.setVF_stopped (u : Byte) : (s.setVF u).stopped = s.stopped := rfl
@[simp] theorem State.setVF_log (u : Byte) : (s.setVF u).log = s.log := rfl
@[simp] theorem State.setVF_rendered (u : Byte) : (s.setVF u).rendered = s.rendered := rfl
@[simp] theorem State.setVF_draws (u : Byte) : (s.setVF u).draws = s.draws := rfl
@[simp] theorem State.setVF_params (u : Byte) : (s.setVF u).params = s.params := rfl

@[simp] theorem State.logicVF_mem : (s.logicVF).mem = s.mem := by unfold State.logicVF; split <;> rfl
@[simp] theorem State.logicVF_i : (s.logicVF).i = s.i := by unfold State.logicVF; split <;> rfl
@[simp] theorem State.logicVF_pc : (s.logicVF).pc = s.pc := by unfold State.logicVF; split <;> rfl
@[simp] theorem State.logicVF_stack : (s.logicVF).stack = s.stack := by unfold State.logicVF; split <;> rfl
@[simp] theorem State.logicVF_sp : (s.logicVF).sp = s.sp := by unfold State.logicVF; split <;> rfl
@[simp] theorem State.logicVF_dt : (s.logicVF).dt = s.dt := by unfold State.logicVF; split <;> rfl
@[simp] theorem State.logicVF_st : (s.logicVF).st = s.st := by unfold State.logicVF; split <;> rfl
@[simp] theorem State.logicVF_halt : (s.logicVF).halt = s.halt := by unfold State.logicVF; split <;> rfl
@[simp] theorem State.logicVF_status : (s.logicVF).status = s.status := by unfold State.logicVF; split <;> rfl
@[simp] theorem State.logicVF_stopped : (s.logicVF).stopped = s.stopped := by unfold State.logicVF; split <;> rfl
@[simp] theorem State.logicVF_log : (s.logicVF).log = s.log := by unfold State.logicVF; split <;> rfl
@[simp] theorem State.logicVF_rendered : (s.logicVF).rendered = s.rendered := by unfold State.logicVF; split <;> rfl
@[simp] theorem State.logicVF_draws : (s.logicVF).draws = s.draws := by unfold State.logicVF; split <;> rfl
@[simp] theorem State.logicVF_params : (s.logicVF).params = s.params := by unfold State.logicVF; split <;> rfl

@[simp] theorem State.indexVF_mem (u : Byte) : (s.indexVF u).mem = s.mem := by unfold State.indexVF; split <;> rfl
@[simp] theorem State.indexVF_i (u : Byte) : (s.indexVF u).i = s.i := by unfold State.indexVF; split <;> rfl
@[simp] theorem State.indexVF_pc (u : Byte) : (s.indexVF u).pc = s.pc := by unfold State.indexVF; split <;> rfl
@[simp] theorem State.indexVF_stack (u : Byte) : (s.indexVF u).stack = s.stack := by unfold State.indexVF; split <;> rfl
@[simp] theorem State.indexVF_sp (u : Byte) : (s.indexVF u).sp = s.sp := by unfold State.indexVF; split <;> rfl
@[simp] theorem State.indexVF_dt (u : Byte) : (s.indexVF u).dt = s.dt := by unfold State.indexVF; split <;> rfl
@[simp] theorem State.indexVF_st (u : Byte) : (s.indexVF u).st = s.st := by unfold State.indexVF; split <;> rfl
@[simp] theorem State.indexVF_halt (u : Byte) : (s.indexVF u).halt = s.halt := by unfold State.indexVF; split <;> rfl
@[simp] theorem State.indexVF_status (u : Byte) : (s.indexVF u).status = s.status := by unfold State.indexVF; split <;> rfl
@[simp] theorem State.indexVF_stopped (u : Byte) : (s.indexVF u).stopped = s.stopped := by unfold State.indexVF; split <;> rfl
@[simp] theorem State.indexVF_log (u : Byte) : (s.indexVF u).log = s.log := by unfold State.indexVF; split <;> rfl
@[simp] theorem State.indexVF_rendered (u : Byte) : (s.indexVF u).rendered = s.rendered := by unfold State.indexVF; split <;> rfl
@[simp] theorem State.indexVF_draws (u : Byte) : (s.indexVF u).draws = s.draws := by unfold State.indexVF; split <;> rfl
@[simp] theorem State.indexVF_params (u : Byte) : (s.indexVF u).params = s.params := by unfold State.indexVF; split <;> rfl

/-! ### raiseUnknown (R242) -/

@[simp] theorem State.raiseUnknown_mem (w : Word) : (s.raiseUnknown w).mem = s.mem := by unfold State.raiseUnknown; split <;> rfl
@[simp] theorem State.raiseUnknown_v (w : Word) : (s.raiseUnknown w).v = s.v := by unfold State.raiseUnknown; split <;> rfl
@[simp] theorem State.raiseUnknown_i (w : Word) : (s.raiseUnknown w).i = s.i := by unfold State.raiseUnknown; split <;> rfl
@[simp] theorem State.raiseUnknown_pc (w : Word) : (s.raiseUnknown w).pc = s.pc := by unfold State.raiseUnknown; split <;> rfl
@[simp] theorem State.raiseUnknown_stack (w : Word) : (s.raiseUnknown w).stack = s.stack := by unfold State.raiseUnknown; split <;> rfl
@[simp] theorem State.raiseUnknown_sp (w : Word) : (s.raiseUnknown w).sp = s.sp := by unfold State.raiseUnknown; split <;> rfl
@[simp] theorem State.raiseUnknown_dt (w : Word) : (s.raiseUnknown w).dt = s.dt := by unfold State.raiseUnknown; split <;> rfl
@[simp] theorem State.raiseUnknown_st (w : Word) : (s.raiseUnknown w).st = s.st := by unfold State.raiseUnknown; split <;> rfl
@[simp] theorem State.raiseUnknown_halt (w : Word) : (s.raiseUnknown w).halt = s.halt := by unfold State.raiseUnknown; split <;> rfl
@[simp] theorem State.raiseUnknown_rendered (w : Word) : (s.raiseUnknown w).rendered = s.rendered := by unfold State.raiseUnknown; split <;> rfl
@[simp] theorem State.raiseUnknown_draws (w : Word) : (s.raiseUnknown w).draws = s.draws := by unfold State.raiseUnknown; split <;> rfl
@[simp] theorem State.raiseUnknown_params (w : Word) : (s.raiseUnknown w).params = s.params := by unfold State.raiseUnknown; split <;> rfl
@[simp] theorem State.raiseUnknown_status (w : Word) : (s.raiseUnknown w).status = .unknownOpcode w := by
  unfold State.raiseUnknown; split <;> rfl

theorem State.raiseUnknown_stopped (w : Word) :
    (s.raiseUnknown w).stopped = (s.stopped || s.params.unknownPolicy == .halt) := by
  unfold State.raiseUnknown; split <;> simp_all

theorem State.raiseUnknown_log (w : Word) :
    (s.raiseUnknown w).log = if s.params.unknownPolicy = .logAndContinue then w :: s.log else s.log := by
  unfold State.raiseUnknown; split <;> simp_all [State.raise]

end Sys2Proof.Machine
end

