-- ==== Sys2Proof/Laws/Ops.lean ====
section
/-! SUPPORT. One lemma per shared operation that says everything it can do. -/

namespace Sys2Proof.Machine

variable (s : State)

/-! ## The primitives that can raise (R30, R31, R36, R37) -/

theorem State.memRead1_cases (a : Nat) :
    (a ≤ 0xFFF ∧ s.memRead1 a = .ok (s.mem.read a)) ∨ (0xFFF < a ∧ s.memRead1 a = .error (.memOutOfBounds a)) := by
  unfold State.memRead1
  by_cases h : a > 0xFFF
  · exact .inr ⟨h, if_pos h⟩
  · exact .inl ⟨by omega, if_neg h⟩

theorem State.memWrite_cases (a : Nat) (u : Byte) :
    (a ≤ 0xFFF ∧ s.memWrite a u = .ok (s.setMem a u)) ∨ (0xFFF < a ∧ s.memWrite a u = .error (.memOutOfBounds a)) := by
  unfold State.memWrite
  by_cases h : a > 0xFFF
  · exact .inr ⟨h, if_pos h⟩
  · exact .inl ⟨by omega, if_neg h⟩

/-- A push either writes the entry `SP` names and counts it, or raises and changes nothing (R30). -/
theorem State.stackPush_cases (a : Word) :
    (∃ (h : s.sp.val < 16) (h' : s.sp.val + 1 < 17),
      s.stackPush a = .ok { s with stack := s.stack.set s.sp.val a h, sp := ⟨s.sp.val + 1, h'⟩ }) ∨
    (s.sp.val = 16 ∧ s.stackPush a = .error .stackOverflow) := by
  unfold State.stackPush
  by_cases h : s.sp.val < 16
  · exact .inl ⟨h, by omega, dif_pos h⟩
  · exact .inr ⟨by have := s.sp.isLt; omega, dif_neg h⟩

/-- A pop either answers the newest entry, which stays in place, and uncounts it, or raises and changes nothing (R31). -/
theorem State.stackPop_cases :
    (∃ (h : s.sp.val - 1 < 16) (h' : s.sp.val - 1 < 17), 0 < s.sp.val ∧
      s.stackPop = .ok (s.stack[s.sp.val - 1]'h, { s with sp := ⟨s.sp.val - 1, h'⟩ })) ∨
    (s.sp.val = 0 ∧ s.stackPop = .error .stackUnderflow) := by
  have hlt := s.sp.isLt
  unfold State.stackPop
  by_cases h : s.sp.val = 0
  · exact .inr ⟨h, dif_pos h⟩
  · exact .inl ⟨by omega, by omega, by omega, dif_neg h⟩

@[simp] theorem State.finish_ok (t : State) : s.finish (.ok t) = .next t := rfl

@[simp] theorem State.finish_error (e : ExecError) : s.finish (.error e) = .next (s.raiseExec e) := rfl

/-! ## Runs of bytes (R225) -/

/-- Every byte lies in `MEM`: the bytes from `a` upward are answered. -/
theorem State.loadBytes_ok {a n : Nat} (h : n = 0 ∨ a + n ≤ 0x1000) :
    s.loadBytes a n = .ok ((List.range n).map fun k => s.mem.read (a + k)) := by
  induction n generalizing a with
  | zero => rfl
  | succ n ih =>
    rcases s.memRead1_cases a with ⟨_, hr⟩ | ⟨ha, _⟩
    · rw [State.loadBytes, hr]
      simp only
      rw [ih (by omega)]
      simp only [List.range_succ_eq_map, List.map_cons, List.map_map, Nat.add_zero]
      congr 2
      exact List.map_congr_left fun k _ => by simp only [Function.comp]; congr 1; omega
    · omega

/-- Some byte lies above `0xFFF`: the first such address is raised. -/
theorem State.loadBytes_error {a n : Nat} (hn : 0 < n) (h : 0x1000 < a + n) :
    s.loadBytes a n = .error (.memOutOfBounds (max a 0x1000)) := by
  induction n generalizing a with
  | zero => omega
  | succ n ih =>
    rcases s.memRead1_cases a with ⟨ha, hr⟩ | ⟨ha, hr⟩
    · rw [State.loadBytes, hr]
      simp only
      rw [ih (by omega) (by omega)]
      simp only [Except.error.injEq, ExecError.memOutOfBounds.injEq]
      omega
    · rw [State.loadBytes, hr]
      simp only [Except.error.injEq, ExecError.memOutOfBounds.injEq]
      omega

/-- Every byte lies in `MEM`: the bytes are written, nothing else changes. -/
theorem State.storeBytes_ok {a : Nat} {us : List Byte} (h : us = [] ∨ a + us.length ≤ 0x1000) :
    s.storeBytes a us = .ok (s.place a us) := by
  induction us generalizing s a with
  | nil => rfl
  | cons u us ih =>
    simp only [reduceCtorEq, false_or, List.length_cons] at h
    rcases s.memWrite_cases a u with ⟨_, hw⟩ | ⟨ha, _⟩
    · rw [State.storeBytes, hw]
      simp only
      rw [ih _ (.inr (by omega))]
      rfl
    · omega

/-- Some byte lies above `0xFFF`: the first such address is raised and no write is kept (D36). -/
theorem State.storeBytes_error {a : Nat} {us : List Byte} (hn : us ≠ []) (h : 0x1000 < a + us.length) :
    s.storeBytes a us = .error (.memOutOfBounds (max a 0x1000)) := by
  induction us generalizing s a with
  | nil => exact absurd rfl hn
  | cons u us ih =>
    simp only [List.length_cons] at h
    rcases s.memWrite_cases a u with ⟨ha, hw⟩ | ⟨ha, hw⟩
    · rw [State.storeBytes, hw]
      simp only
      rw [ih _ (by rintro rfl; simp only [List.length_nil] at h; omega) (by omega)]
      simp only [Except.error.injEq, ExecError.memOutOfBounds.injEq]
      omega
    · rw [State.storeBytes, hw]
      simp only [Except.error.injEq, ExecError.memOutOfBounds.injEq]
      omega

/-! ## Register runs (R221, R223) -/

@[simp] theorem State.length_firstRegisters (x : Register) : (s.firstRegisters x).length = x.toNat + 1 := by
  simp only [State.firstRegisters, List.length_map, List.length_range]

theorem State.getElem_firstRegisters (x : Register) (k : Nat) (hk : k < (s.firstRegisters x).length) :
    (s.firstRegisters x)[k] = s.getV (BitVec.ofNat 4 k) := by
  simp only [State.firstRegisters, List.getElem_map, List.getElem_range]

/-- A run of register writes changes `v` alone. -/
theorem State.setRegisters_frame (k : Nat) (us : List Byte) :
    s.setRegisters k us = { s with v := (s.setRegisters k us).v } := by
  induction us generalizing s k with
  | nil => rfl
  | cons u us ih =>
    rw [State.setRegisters]
    exact ih (s.setV (BitVec.ofNat 4 k) u) (k + 1)

/-- A register inside the run holds its byte, one outside is unchanged. -/
theorem State.getV_setRegisters {k : Nat} {us : List Byte} (h : k + us.length ≤ 16) (r : Register) :
    (s.setRegisters k us).getV r =
      if hr : k ≤ r.toNat ∧ r.toNat - k < us.length then us[r.toNat - k]'hr.2 else s.getV r := by
  induction us generalizing s k with
  | nil => simp [State.setRegisters]
  | cons u us ih =>
    simp only [List.length_cons] at h
    have hk : (BitVec.ofNat 4 k).toNat = k := by
      rw [BitVec.toNat_ofNat]; exact Nat.mod_eq_of_lt (by omega)
    rw [State.setRegisters, ih _ (by omega), State.getV_setV]
    by_cases hr : r.toNat = k
    · have : r = BitVec.ofNat 4 k := BitVec.eq_of_toNat_eq (by rw [hk, hr])
      rw [dif_neg (by omega), if_pos this, dif_pos (by simp only [List.length_cons]; omega)]
      simp [hr]
    · have : r ≠ BitVec.ofNat 4 k := fun he => hr (by rw [he, hk])
      rw [if_neg this]
      by_cases h2 : k + 1 ≤ r.toNat ∧ r.toNat - (k + 1) < us.length
      · rw [dif_pos h2, dif_pos (by simp only [List.length_cons]; omega)]
        simp only [show r.toNat - k = r.toNat - (k + 1) + 1 by omega, List.getElem_cons_succ]
      · rw [dif_neg h2, dif_neg (by simp only [List.length_cons]; omega)]

/-! ## Collaborators -/

/-- The keyboard refuses only for a key number above 15 under `refuse` (R169, U7). -/
theorem State.keyAnswer_eq_none (k : Byte) :
    s.keyAnswer k = none ↔ 0xF < k.toNat ∧ s.params.keyIndexPolicy = .refuse := by
  unfold State.keyAnswer
  by_cases h : k.toNat ≤ 0xF
  · simp [h]
  · rw [if_neg h]
    split <;> simp_all

/-- A sprite drawn: the rows reach the renderer, if there are any, and `VF` holds its answer (R213). -/
theorem State.drawSprite_cases (x y : Register) (rows : List Byte) :
    (rows = [] ∧ s.drawSprite x y rows = s.setVF 0) ∨
    (rows ≠ [] ∧ s.drawSprite x y rows =
      (s.draw.callRenderer (.draw (s.getV x) (s.getV y) rows)).setVF (flag s.collision)) := by
  cases rows with
  | nil => exact .inl ⟨rfl, rfl⟩
  | cons u us => exact .inr ⟨by simp, rfl⟩

end Sys2Proof.Machine
end

