-- ==== Sys2Proof/Laws/Exec.lean ====
section
/-! SUPPORT. What `exec` answers for the instructions that can raise or be refused: the error raised in the state the fetch left, or the
instruction's own effect. Every other arm of `exec` answers its next state by definition. -/

namespace Sys2Proof.Machine

variable (s : State)

/-- R143. -/
theorem exec_ret_cases :
    (s.sp.val = 0 ∧ exec .ret s = .next (s.raiseExec .stackUnderflow)) ∨
    (∃ (h : s.sp.val - 1 < 16) (h' : s.sp.val - 1 < 17), 0 < s.sp.val ∧
      exec .ret s = .next { s with sp := ⟨s.sp.val - 1, h'⟩, pc := s.stack[s.sp.val - 1]'h }) := by
  simp only [exec, execReturn]
  rcases s.stackPop_cases with ⟨h, h', hp, he⟩ | ⟨h0, he⟩
  · rw [he]; exact .inr ⟨h, h', hp, rfl⟩
  · rw [he]; exact .inl ⟨h0, rfl⟩

/-- R149. -/
theorem exec_call_cases (nnn : Address) :
    (s.sp.val = 16 ∧ exec (.call nnn) s = .next (s.raiseExec .stackOverflow)) ∨
    (∃ (h : s.sp.val < 16) (h' : s.sp.val + 1 < 17),
      exec (.call nnn) s =
        .next { s with sp := ⟨s.sp.val + 1, h'⟩, pc := target nnn, stack := s.stack.set s.sp.val s.pc h }) := by
  simp only [exec, execCall]
  rcases s.stackPush_cases s.pc with ⟨h, h', he⟩ | ⟨h0, he⟩
  · rw [he]; exact .inr ⟨h, h', rfl⟩
  · rw [he]; exact .inl ⟨h0, rfl⟩

/-- R145. -/
theorem exec_sys_cases (nnn : Address) :
    (s.params.sysPolicy = .ignore ∧ exec (.sys nnn) s = .next s) ∨
    (s.params.sysPolicy = .fault ∧ exec (.sys nnn) s = .next (s.raiseExec (.sysUnsupported nnn))) := by
  simp only [exec, execSys]
  cases s.params.sysPolicy
  · exact .inl ⟨rfl, rfl⟩
  · exact .inr ⟨rfl, rfl⟩

/-- R169, R171: a key skip that answers a next state has taken one answer of the keyboard. -/
theorem exec_key_skips (x : Register) {t : State} :
    (exec (.skipKeyPress x) s = .next t → ∃ down, s.keyAnswer (s.getV x) = some down ∧ t = s.draw.skipIf down) ∧
    (exec (.skipKeyNotPress x) s = .next t → ∃ down, s.keyAnswer (s.getV x) = some down ∧ t = s.draw.skipIf (!down)) := by
  simp only [exec, execSkipKeyPress, execSkipKeyNotPress]
  cases s.keyAnswer (s.getV x) with
  | none => exact ⟨nofun, nofun⟩
  | some down => exact ⟨fun h => ⟨down, rfl, (Host.Outcome.next.inj h).symm⟩, fun h => ⟨down, rfl, (Host.Outcome.next.inj h).symm⟩⟩

/-- R213, R225. -/
theorem exec_displaySprite_cases (x y : Register) (n : Nibble) :
    (n.toNat ≠ 0 ∧ 0x1000 < s.ea n.toNat ∧
      exec (.displaySprite x y n) s = .next (s.raiseExec (.memOutOfBounds (max (s.ea 0) 0x1000)))) ∨
    ((n.toNat = 0 ∨ s.ea n.toNat ≤ 0x1000) ∧
      exec (.displaySprite x y n) s =
        .next (s.drawSprite x y ((List.range n.toNat).map fun k => s.mem.read (s.ea 0 + k)))) := by
  have hea : s.ea n.toNat = s.ea 0 + n.toNat := rfl
  simp only [exec, execDisplaySprite]
  by_cases h : n.toNat = 0 ∨ s.ea n.toNat ≤ 0x1000
  · rw [s.loadBytes_ok (hea ▸ h)]; exact .inr ⟨h, rfl⟩
  · rw [s.loadBytes_error (by omega) (by omega)]; exact .inl ⟨by omega, by omega, rfl⟩

/-- R219, R225. -/
theorem exec_storeBcd_cases (x : Register) :
    (0x1000 < s.ea 3 ∧ exec (.storeBcd x) s = .next (s.raiseExec (.memOutOfBounds (max (s.ea 0) 0x1000)))) ∨
    (s.ea 3 ≤ 0x1000 ∧ exec (.storeBcd x) s = .next (s.place (s.ea 0) (bcdDigits (s.getV x)))) := by
  have hl : s.ea 3 = s.ea 0 + (bcdDigits (s.getV x)).length := rfl
  simp only [exec, execStoreBcd]
  by_cases h : s.ea 3 ≤ 0x1000
  · rw [s.storeBytes_ok (.inr (hl ▸ h))]; exact .inr ⟨h, rfl⟩
  · have hne : bcdDigits (s.getV x) ≠ [] := List.cons_ne_nil _ _
    rw [s.storeBytes_error hne (by omega)]; exact .inl ⟨by omega, rfl⟩

/-- R221, R225. -/
theorem exec_storeRegisters_cases (x : Register) :
    (0x1000 < s.ea (x.toNat + 1) ∧
      exec (.storeRegisters x) s = .next (s.raiseExec (.memOutOfBounds (max (s.ea 0) 0x1000)))) ∨
    (s.ea (x.toNat + 1) ≤ 0x1000 ∧
      exec (.storeRegisters x) s = .next ((s.place (s.ea 0) (s.firstRegisters x)).advanceI x)) := by
  have hl : s.ea (x.toNat + 1) = s.ea 0 + (s.firstRegisters x).length := by rw [s.length_firstRegisters]; rfl
  have hne : s.firstRegisters x ≠ [] := List.ne_nil_of_length_pos (by rw [s.length_firstRegisters]; omega)
  simp only [exec, execStoreRegisters]
  by_cases h : s.ea (x.toNat + 1) ≤ 0x1000
  · rw [s.storeBytes_ok (.inr (hl ▸ h))]; exact .inr ⟨h, rfl⟩
  · rw [s.storeBytes_error hne (by omega)]; exact .inl ⟨by omega, rfl⟩

/-- R223, R225. -/
theorem exec_loadRegisters_cases (x : Register) :
    (0x1000 < s.ea (x.toNat + 1) ∧
      exec (.loadRegisters x) s = .next (s.raiseExec (.memOutOfBounds (max (s.ea 0) 0x1000)))) ∨
    (s.ea (x.toNat + 1) ≤ 0x1000 ∧
      exec (.loadRegisters x) s =
        .next ((s.setRegisters 0 ((List.range (x.toNat + 1)).map fun k => s.mem.read (s.ea 0 + k))).advanceI x)) := by
  have hea : s.ea (x.toNat + 1) = s.ea 0 + (x.toNat + 1) := rfl
  simp only [exec, execLoadRegisters]
  by_cases h : s.ea (x.toNat + 1) ≤ 0x1000
  · rw [s.loadBytes_ok (.inr (hea ▸ h))]; exact .inr ⟨h, rfl⟩
  · rw [s.loadBytes_error (by omega) (by omega)]; exact .inl ⟨by omega, rfl⟩

end Sys2Proof.Machine
end

