-- ==== Sys2Proof/Laws/PerInstr.lean ====
section
/-! SUPPORT. Per instruction: its encoded word matches its own row of the Opcode Table and carries every operand
(`30_encoding.md` R73, R87). -/

namespace Sys2Proof.Laws.Encoded

/-- The row of the instruction's variant, its match with the encoded word, and the operands the row's format reads back (R73). -/
def Statement (i : Instr) : Prop :=
  i.op.build i.operands = i ∧
    ∃ r, i.op.row = some r ∧ r.hit (encode i) = true ∧ r.format.operands (encode i) = i.operands

/-! ## The nibbles of the four masks -/

theorem and_fifteen (a : BitVec 4) : a &&& 15#4 = a := by revert a; decide

theorem mask_F000 : fF000 61440#16 = 15#4 ∧ f0F00 61440#16 = 0#4 ∧ f00F0 61440#16 = 0#4 ∧ f000F 61440#16 = 0#4 := by decide

theorem mask_F00F : fF000 61455#16 = 15#4 ∧ f0F00 61455#16 = 0#4 ∧ f00F0 61455#16 = 0#4 ∧ f000F 61455#16 = 15#4 := by decide

theorem mask_F0FF : fF000 61695#16 = 15#4 ∧ f0F00 61695#16 = 0#4 ∧ f00F0 61695#16 = 15#4 ∧ f000F 61695#16 = 15#4 := by decide

/-! ## One lemma per format, over any expected bits that leave the operand fields free -/

theorem zero_address {e : Word} (h : f0FFF e = 0) : f0F00 e = 0 ∧ f00F0 e = 0 ∧ f000F e = 0 := by
  rw [f0FFF_eq, f00FF_eq] at h
  generalize f0F00 e = a, f00F0 e = b, f000F e = c at h
  revert a b c; decide

theorem zero_byte {e : Word} (h : f00FF e = 0) : f00F0 e = 0 ∧ f000F e = 0 := by
  rw [f00FF_eq] at h
  generalize f00F0 e = b, f000F e = c at h
  revert b c; decide

theorem format_a {e : Word} {op : Op} (nnn : Address) (h : f0FFF e = 0) :
    (⟨e, 0xF000, .a, op⟩ : Row).hit (e ||| Operands.bits { nnn := nnn }) = true ∧
      Format.operands .a (e ||| Operands.bits { nnn := nnn }) = { nnn := nnn } := by
  simp [Row.hit_iff, Operands.bits, Format.operands, h, zero_address h, mask_F000, and_fifteen]

theorem format_xk {e : Word} {op : Op} (x : Register) (kk : Byte) (hx : f0F00 e = 0) (h : f00FF e = 0) :
    (⟨e, 0xF000, .xk, op⟩ : Row).hit (e ||| Operands.bits { x := x, kk := kk }) = true ∧
      Format.operands .xk (e ||| Operands.bits { x := x, kk := kk }) = { x := x, kk := kk } := by
  simp [Row.hit_iff, Operands.bits, Format.operands, h, hx, zero_byte h, mask_F000, and_fifteen]

theorem format_xy {e : Word} {op : Op} (x y : Register) (hx : f0F00 e = 0) (hy : f00F0 e = 0) :
    (⟨e, 0xF00F, .xy, op⟩ : Row).hit (e ||| Operands.bits { x := x, y := y }) = true ∧
      Format.operands .xy (e ||| Operands.bits { x := x, y := y }) = { x := x, y := y } := by
  simp [Row.hit_iff, Operands.bits, Format.operands, hx, hy, mask_F00F, and_fifteen]

theorem format_xyn {e : Word} {op : Op} (x y : Register) (n : Nibble) (h : f0FFF e = 0) :
    (⟨e, 0xF000, .xyn, op⟩ : Row).hit (e ||| Operands.bits { x := x, y := y, n := n }) = true ∧
      Format.operands .xyn (e ||| Operands.bits { x := x, y := y, n := n }) = { x := x, y := y, n := n } := by
  simp [Row.hit_iff, Operands.bits, Format.operands, zero_address h, mask_F000, and_fifteen]

theorem format_x {e : Word} {op : Op} (x : Register) (hx : f0F00 e = 0) :
    (⟨e, 0xF0FF, .x, op⟩ : Row).hit (e ||| Operands.bits { x := x }) = true ∧
      Format.operands .x (e ||| Operands.bits { x := x }) = { x := x } := by
  simp [Row.hit_iff, Operands.bits, Format.operands, hx, mask_F0FF, and_fifteen]

/-! ## One lemma per constructor -/

theorem clearScreen : Statement .clearScreen := ⟨rfl, _, rfl, by decide, rfl⟩

theorem ret : Statement .ret := ⟨rfl, _, rfl, by decide, rfl⟩

theorem sys (nnn : Address) : Statement (.sys nnn) :=
  ⟨rfl, _, rfl, format_a nnn rfl⟩

theorem jump (nnn : Address) : Statement (.jump nnn) :=
  ⟨rfl, _, rfl, format_a nnn rfl⟩

theorem call (nnn : Address) : Statement (.call nnn) :=
  ⟨rfl, _, rfl, format_a nnn rfl⟩

theorem skipEqualByte (x : Register) (kk : Byte) : Statement (.skipEqualByte x kk) :=
  ⟨rfl, _, rfl, format_xk x kk rfl rfl⟩

theorem skipNotEqualByte (x : Register) (kk : Byte) : Statement (.skipNotEqualByte x kk) :=
  ⟨rfl, _, rfl, format_xk x kk rfl rfl⟩

theorem skipEqualRegister (x y : Register) : Statement (.skipEqualRegister x y) :=
  ⟨rfl, _, rfl, format_xy x y rfl rfl⟩

theorem loadByte (x : Register) (kk : Byte) : Statement (.loadByte x kk) :=
  ⟨rfl, _, rfl, format_xk x kk rfl rfl⟩

theorem addByte (x : Register) (kk : Byte) : Statement (.addByte x kk) :=
  ⟨rfl, _, rfl, format_xk x kk rfl rfl⟩

theorem loadRegister (x y : Register) : Statement (.loadRegister x y) :=
  ⟨rfl, _, rfl, format_xy x y rfl rfl⟩

theorem orRegister (x y : Register) : Statement (.orRegister x y) :=
  ⟨rfl, _, rfl, format_xy x y rfl rfl⟩

theorem andRegister (x y : Register) : Statement (.andRegister x y) :=
  ⟨rfl, _, rfl, format_xy x y rfl rfl⟩

theorem xorRegister (x y : Register) : Statement (.xorRegister x y) :=
  ⟨rfl, _, rfl, format_xy x y rfl rfl⟩

theorem addRegister (x y : Register) : Statement (.addRegister x y) :=
  ⟨rfl, _, rfl, format_xy x y rfl rfl⟩

theorem subRegister (x y : Register) : Statement (.subRegister x y) :=
  ⟨rfl, _, rfl, format_xy x y rfl rfl⟩

theorem shiftRight (x y : Register) : Statement (.shiftRight x y) :=
  ⟨rfl, _, rfl, format_xy x y rfl rfl⟩

theorem subNRegister (x y : Register) : Statement (.subNRegister x y) :=
  ⟨rfl, _, rfl, format_xy x y rfl rfl⟩

theorem shiftLeft (x y : Register) : Statement (.shiftLeft x y) :=
  ⟨rfl, _, rfl, format_xy x y rfl rfl⟩

theorem skipNotEqualRegister (x y : Register) : Statement (.skipNotEqualRegister x y) :=
  ⟨rfl, _, rfl, format_xy x y rfl rfl⟩

theorem loadIndex (nnn : Address) : Statement (.loadIndex nnn) :=
  ⟨rfl, _, rfl, format_a nnn rfl⟩

theorem jumpOffset (nnn : Address) : Statement (.jumpOffset nnn) :=
  ⟨rfl, _, rfl, format_a nnn rfl⟩

theorem random (x : Register) (kk : Byte) : Statement (.random x kk) :=
  ⟨rfl, _, rfl, format_xk x kk rfl rfl⟩

theorem displaySprite (x y : Register) (n : Nibble) : Statement (.displaySprite x y n) :=
  ⟨rfl, _, rfl, format_xyn x y n rfl⟩

theorem skipKeyPress (x : Register) : Statement (.skipKeyPress x) :=
  ⟨rfl, _, rfl, format_x x rfl⟩

theorem skipKeyNotPress (x : Register) : Statement (.skipKeyNotPress x) :=
  ⟨rfl, _, rfl, format_x x rfl⟩

theorem loadFromDelay (x : Register) : Statement (.loadFromDelay x) :=
  ⟨rfl, _, rfl, format_x x rfl⟩

theorem loadKeyPress (x : Register) : Statement (.loadKeyPress x) :=
  ⟨rfl, _, rfl, format_x x rfl⟩

theorem loadDelay (x : Register) : Statement (.loadDelay x) :=
  ⟨rfl, _, rfl, format_x x rfl⟩

theorem loadSound (x : Register) : Statement (.loadSound x) :=
  ⟨rfl, _, rfl, format_x x rfl⟩

theorem addIndex (x : Register) : Statement (.addIndex x) :=
  ⟨rfl, _, rfl, format_x x rfl⟩

theorem loadFont (x : Register) : Statement (.loadFont x) :=
  ⟨rfl, _, rfl, format_x x rfl⟩

theorem storeBcd (x : Register) : Statement (.storeBcd x) :=
  ⟨rfl, _, rfl, format_x x rfl⟩

theorem storeRegisters (x : Register) : Statement (.storeRegisters x) :=
  ⟨rfl, _, rfl, format_x x rfl⟩

theorem loadRegisters (x : Register) : Statement (.loadRegisters x) :=
  ⟨rfl, _, rfl, format_x x rfl⟩

end Sys2Proof.Laws.Encoded
end

