-- ==== Sys2Proof/Laws/Step.lean ====
section
/-! SUPPORT. What one fetch and one step can do. -/

namespace Sys2Proof.Machine

variable {s t : State}

/-- A fetch either advances `PC` by 2 with the decoded word, or halts the machine with `PC` kept (R120 to R123). -/
theorem State.fetchStep_cases (s : State) :
    (s.pc.toNat ≤ 0xFFE ∧ s.fetchStep = (.fetched (decode s.fetchWord), s.advance (decode s.fetchWord))) ∨
    (0xFFE < s.pc.toNat ∧ s.fetchStep = (.fatal s.pc, s.raiseFetch)) := by
  unfold State.fetchStep State.fetchInBounds
  by_cases h : s.pc.toNat ≤ 0xFFE
  · exact .inl ⟨h, if_pos (decide_eq_true h)⟩
  · exact .inr ⟨by omega, if_neg (by simp only [decide_eq_true_eq]; exact h)⟩

/-- Both bytes a fetch within bounds reads lie in `MEM` (R121). -/
theorem State.memRead2_fetch (h : s.pc.toNat ≤ 0xFFE) : s.memRead2 s.pc.toNat = .ok s.fetchWord := by
  unfold State.memRead2
  rw [if_neg (by omega)]
  rfl

/-- The gate is open exactly for a running machine. -/
theorem State.gate_eq_none (s : State) :
    s.gate = none ↔ s.halt = false ∧ s.stopped = false ∧ s.refusesLowFetch = false := by
  unfold State.gate
  cases s.halt <;> cases s.stopped <;> cases s.refusesLowFetch <;> simp

/-- A closed gate answers a fault or a refusal, never a next state. -/
theorem State.gate_not_next (s : State) : s.gate ≠ some (.next t) := by
  unfold State.gate
  split
  · simp
  · split
    · simp
    · split <;> simp

/-- Everything a step that answers a next state can have done, in the state the driver's ticks left (R126, R127). -/
theorem step_cases (h : step s = .next t) :
    s.gate = none ∧
    ((0xFFE < s.pc.toNat ∧ t = s.elapse.raiseFetch) ∨
     (s.pc.toNat ≤ 0xFFE ∧ decode s.fetchWord = .noOp ∧ t = s.elapse.advance .noOp) ∨
     (∃ w, s.pc.toNat ≤ 0xFFE ∧ decode s.fetchWord = .unknownOpcode w ∧
        t = (s.elapse.advance (.unknownOpcode w)).raiseUnknown w) ∨
     (∃ i, s.pc.toNat ≤ 0xFFE ∧ decode s.fetchWord = .decoded i ∧ exec i (s.elapse.advance (.decoded i)) = .next t)) := by
  unfold step sequencerStep at h
  split at h
  · rename_i o hg
    exact absurd (h ▸ hg) (State.gate_not_next s)
  · rename_i hg
    refine ⟨hg, ?_⟩
    unfold State.cycle at h
    have hw : s.elapse.fetchWord = s.fetchWord := rfl
    have hpc : s.elapse.pc = s.pc := rfl
    rcases s.elapse.fetchStep_cases with ⟨hb, hf⟩ | ⟨hb, hf⟩
    · rw [hpc] at hb
      rw [hf, hw] at h
      refine .inr ?_
      cases hd : decode s.fetchWord with
      | noOp =>
        rw [hd] at h
        exact .inl ⟨hb, rfl, (Host.Outcome.next.inj h).symm⟩
      | unknownOpcode w =>
        rw [hd] at h
        exact .inr (.inl ⟨w, hb, rfl, (Host.Outcome.next.inj h).symm⟩)
      | decoded i =>
        rw [hd] at h
        exact .inr (.inr ⟨i, hb, rfl, h⟩)
    · rw [hpc] at hb
      rw [hf] at h
      exact .inl ⟨hb, (Host.Outcome.next.inj h).symm⟩

end Sys2Proof.Machine
end

