-- ==== Sys2Proof/Tests/Slice0.lean ====
section
/-! SUPPORT. The model's own tests. Expected values are those of `spec/95_test_vectors.md` (S and V entries, named beside each test);
then one theorem per statement with hypotheses that shows concrete values meeting them. -/

namespace Sys2Proof.Tests

open Sys2Proof.Machine

/-- A field of the next state an outcome answers. -/
def read {α : Type} (f : State → α) : Out → Option α
  | .next t => some (f t)
  | _ => none

/-- The reset state with `FONT_BASE = 0x050`, a common value (D25). -/
def base : State := { State.reset with params := { defaultParams with fontBase := 0x050 } }

/-- The word `w` placed at `pc`, where the next step fetches it. -/
def placed (s : State) (pc : Word) (w : Nat) : State := (s.setPc pc).withFetchWord 16 w

/-- `s` with other arguments of the model. -/
def withParams (s : State) (f : Params → Params) : State := { s with params := f s.params }

/-- `n` entries on the stack, all of them `a`. -/
def stacked (n : Fin 17) (a : Word) : State := { base with sp := n, stack := Vector.replicate 16 a }

/-! ## Encodings: WellFormed, decode, encode -/

/-- R81: the three values without an encoding are refused, their neighbours are not. -/
theorem test_ill_formed_sys_000 : WellFormed (.sys 0x000) = false := by decide
theorem test_ill_formed_sys_0E0 : WellFormed (.sys 0x0E0) = false := by decide
theorem test_ill_formed_sys_0EE : WellFormed (.sys 0x0EE) = false := by decide
theorem test_well_formed_neighbours :
    WellFormed (.sys 0x001) = true ∧ WellFormed (.sys 0x0E1) = true ∧ WellFormed (.sys 0x0ED) = true := by decide

/-- V2, rows 0 to 4. -/
theorem test_decode_rows_0_to_4 :
    decode 0b0000_0000_1110_0000 = .decoded .clearScreen ∧ decode 0b0000_0000_1110_1110 = .decoded .ret ∧
    decode 0b0000_0001_0010_0011 = .decoded (.sys 0x123) ∧ decode 0b0001_1010_1011_1100 = .decoded (.jump 0xABC) ∧
    decode 0b0010_0010_0000_1010 = .decoded (.call 0x20A) := by decide

/-- V2, rows 5 to 9. -/
theorem test_decode_rows_5_to_9 :
    decode 0b0011_1010_0111_1111 = .decoded (.skipEqualByte 0xA 0x7F) ∧
    decode 0b0100_1011_0001_0000 = .decoded (.skipNotEqualByte 0xB 0x10) ∧
    decode 0b0101_0001_0010_0000 = .decoded (.skipEqualRegister 0x1 0x2) ∧
    decode 0b0110_0000_1111_1110 = .decoded (.loadByte 0x0 0xFE) ∧
    decode 0b0111_0000_1111_1111 = .decoded (.addByte 0x0 0xFF) := by decide

/-- V2, rows 10 to 14. -/
theorem test_decode_rows_10_to_14 :
    decode 0b1000_0001_0010_0000 = .decoded (.loadRegister 0x1 0x2) ∧
    decode 0b1000_0001_0010_0001 = .decoded (.orRegister 0x1 0x2) ∧
    decode 0b1000_0001_0010_0010 = .decoded (.andRegister 0x1 0x2) ∧
    decode 0b1000_0001_0010_0011 = .decoded (.xorRegister 0x1 0x2) ∧
    decode 0b1000_0001_0000_0100 = .decoded (.addRegister 0x1 0x0) := by decide

/-- V2, rows 15 to 19. -/
theorem test_decode_rows_15_to_19 :
    decode 0b1000_1101_1011_0101 = .decoded (.subRegister 0xD 0xB) ∧
    decode 0b1000_0001_0010_0110 = .decoded (.shiftRight 0x1 0x2) ∧
    decode 0b1000_0001_0010_0111 = .decoded (.subNRegister 0x1 0x2) ∧
    decode 0b1000_0001_0010_1110 = .decoded (.shiftLeft 0x1 0x2) ∧
    decode 0b1001_1010_1011_0000 = .decoded (.skipNotEqualRegister 0xA 0xB) := by decide

/-- V2, rows 20 to 25. -/
theorem test_decode_rows_20_to_25 :
    decode 0b1010_0011_0000_0000 = .decoded (.loadIndex 0x300) ∧
    decode 0b1011_0011_0000_0000 = .decoded (.jumpOffset 0x300) ∧
    decode 0b1100_0011_0000_1111 = .decoded (.random 0x3 0x0F) ∧
    decode 0b1101_1101_1011_0101 = .decoded (.displaySprite 0xD 0xB 0x5) ∧
    decode 0b1110_0101_1001_1110 = .decoded (.skipKeyPress 0x5) ∧
    decode 0b1110_0000_1010_0001 = .decoded (.skipKeyNotPress 0x0) := by decide

/-- V2, rows 26 to 30. -/
theorem test_decode_rows_26_to_30 :
    decode 0b1111_0011_0000_0111 = .decoded (.loadFromDelay 0x3) ∧
    decode 0b1111_0100_0000_1010 = .decoded (.loadKeyPress 0x4) ∧
    decode 0b1111_1100_0001_0101 = .decoded (.loadDelay 0xC) ∧
    decode 0b1111_0001_0001_1000 = .decoded (.loadSound 0x1) ∧
    decode 0b1111_0010_0001_1110 = .decoded (.addIndex 0x2) := by decide

/-- V2, rows 31 to 34. -/
theorem test_decode_rows_31_to_34 :
    decode 0b1111_1010_0010_1001 = .decoded (.loadFont 0xA) ∧
    decode 0b1111_0000_0011_0011 = .decoded (.storeBcd 0x0) ∧
    decode 0b1111_0001_0101_0101 = .decoded (.storeRegisters 0x1) ∧
    decode 0b1111_0010_0110_0101 = .decoded (.loadRegisters 0x2) := by decide

/-- V2, extreme words. -/
theorem test_decode_extremes :
    decode 0x0FFF = .decoded (.sys 0xFFF) ∧ decode 0x5FF0 = .decoded (.skipEqualRegister 0xF 0xF) ∧
    decode 0x8FFE = .decoded (.shiftLeft 0xF 0xF) ∧ decode 0xDFFF = .decoded (.displaySprite 0xF 0xF 0xF) ∧
    decode 0xEFA1 = .decoded (.skipKeyNotPress 0xF) ∧ decode 0xFF65 = .decoded (.loadRegisters 0xF) := by decide

/-- V3: neighbours of the exact words of class 0. -/
theorem test_decode_class_0_neighbours :
    decode 0x0000 = .noOp ∧ decode 0x00DF = .decoded (.sys 0x0DF) ∧ decode 0x00E1 = .decoded (.sys 0x0E1) ∧
    decode 0x00ED = .decoded (.sys 0x0ED) ∧ decode 0x00EF = .decoded (.sys 0x0EF) := by decide

/-- V3: illegal words of classes 5, 8, 9. -/
theorem test_decode_illegal_5_8_9 :
    [0x5121#16, 0x512F, 0x8AB8, 0x8ABD, 0x8ABF, 0x9AB1].all (fun w => decode w == .unknownOpcode w) = true := by decide

/-- V3: illegal words of classes E, F. -/
theorem test_decode_illegal_E_F :
    [0xE09F#16, 0xE0A0, 0xE000, 0xEB8E, 0xF000, 0xFC14, 0xF056, 0xFFFF].all (fun w => decode w == .unknownOpcode w) = true := by
  decide

/-- V2, last line: `encode` gives the word back; the high byte lies at the lower address (R52). -/
theorem test_encode :
    encode (.subRegister 0xD 0xB) = 0x8DB5 ∧ encode (.displaySprite 0xD 0xB 0x5) = 0xDDB5 ∧ encode (.sys 0x123) = 0x0123 ∧
    encode (.loadByte 0x0 0xFE) = 0x60FE ∧ encode (.loadRegisters 0x2) = 0xF265 ∧ encodeBytes (.jump 0xABC) = [0x1A, 0xBC] := by
  decide

/-- V1: the extractors on `0xA5C3`. -/
theorem test_extractors :
    fF000 0xA5C3 = 0xA ∧ f0FFF 0xA5C3 = 0x5C3 ∧ f0F00 0xA5C3 = 0x5 ∧ f00F0 0xA5C3 = 0xC ∧ f000F 0xA5C3 = 0x3 ∧
    f00FF 0xA5C3 = 0xC3 := by decide

/-- V4: the ports. -/
theorem test_ports :
    ports 0x0000 = Ports.zero ∧ ports 0x1ABC = { Ports.zero with outcome := 1, sel := 3, dispatch := 1 <<< 3, opNnn := 0xABC } ∧
    ports 0xDDB5 = { Ports.zero with outcome := 1, sel := 23, dispatch := 1 <<< 23, opX := 0xD, opY := 0xB, opN := 0x5 } ∧
    ports 0x60FE = { Ports.zero with outcome := 1, sel := 8, dispatch := 1 <<< 8, opKk := 0xFE } ∧
    ports 0xFC14 = { Ports.zero with outcome := 2, errWord := 0xFC14 } := by decide

/-- The host's view of a table word. -/
theorem test_decode_table_word :
    decodeTableWord 16 0x8DB5 = some (.subRegister 0xD 0xB) ∧ decodeTableWord 16 0xFC14 = none := by decide

/-! ## Fetch, step, reset -/

/-- V5: the byte order matters; S9, S10: the last fetch and the first that fails. -/
theorem test_fetch_order :
    (placed base 0x200 0xA2F0).fetchStep.1 = .fetched (.decoded (.loadIndex 0x2F0)) ∧
    (placed base 0x200 0xF0A2).fetchStep.1 = .fetched (.unknownOpcode 0xF0A2) := by decide
theorem test_fetch_last :
    (placed base 0xFFE 0x1234).fetchStep.1 = .fetched (.decoded (.jump 0x234)) ∧
    (placed base 0xFFE 0x1234).fetchStep.2.pc = 0x1000 ∧ (placed base 0xFFE 0x1234).fetchStep.2.halt = false := by decide
theorem test_fetch_out_of_bounds :
    (base.setPc 0xFFF).fetchStep.1 = .fatal 0xFFF ∧ (base.setPc 0xFFF).fetchStep.2.halt = true ∧
    (base.setPc 0xFFFF).fetchStep.2.pc = 0xFFFF := by decide

/-- V5: a fetch at an odd address. -/
theorem test_fetch_odd :
    ({ base with pc := 0x201, mem := [(0x200, 0x61), (0x201, 0x23), (0x202, 0x45)] } : State).fetchStep.1 =
      .fetched (.decoded (.call 0x345)) := by decide

/-- V5, last line: a fetch at `0x0100` is refused by default and is a `NoOp` under `ALLOW_LOW_FETCH`. -/
theorem test_low_fetch_refused :
    (match step (base.setPc 0x100) with | .refused r => r == .lowFetch 0x100 | _ => false) = true := by decide
theorem test_low_fetch_allowed :
    read (fun t => (t.pc, t.status)) (step (withParams (base.setPc 0x100) fun p => { p with allowLowFetch := true })) =
      some (0x102, .noOp) := by decide

/-- V11, P4: reset memory is `NoOp`; past `0xFFE` the step is fatal. -/
theorem test_step_no_op : read (fun t => (t.pc, t.status)) (step State.reset) = some (0x202, .noOp) := by decide
theorem test_step_fatal : read (fun t => (t.pc, t.halt, t.status)) (step (base.setPc 0x1000)) =
    some (0x1000, true, .fetchOutOfBounds 0x1000) := by decide

/-- P7: an illegal word under `halt` and under `log_and_continue`. -/
theorem test_step_unknown_halt :
    read (fun t => (t.pc, t.status, t.stopped)) (step (placed base 0x200 0xFC14)) =
      some (0x202, .unknownOpcode 0xFC14, true) := by decide
theorem test_step_unknown_log :
    read (fun t => (t.status, t.stopped, t.log))
      (step (placed (withParams base fun p => { p with unknownPolicy := .logAndContinue }) 0x200 0xFC14)) =
      some (.unknownOpcode 0xFC14, false, [0xFC14]) := by decide

/-- V11: the four bytes of a ROM. -/
theorem test_boot :
    read (fun t => (t.mem, t.pc)) (boot defaultParams [0x60, 0x05, 0x12, 0x00]) =
      some ([(0x200, 0x60), (0x201, 0x05), (0x202, 0x12)], 0x200) := by decide

/-- R217: digit `7` of the conventional font, at `FONT_BASE + 35`. -/
theorem test_font : (List.range 5).map (fun k => base.installFont.mem.read (0x050 + 35 + k)) = [0xF0, 0x10, 0x20, 0x40, 0x40] := by
  decide

/-! ## Flow (V6) -/

theorem test_clear_screen :
    read (fun t => (t.pc, t.rendered)) (step (placed base 0x200 0x00E0)) = some (0x202, [.clear]) := by decide
theorem test_return :
    read (fun t => (t.pc, t.sp.val, t.stack[0])) (step (placed (stacked 1 0x0206) 0x20C 0x00EE)) = some (0x206, 0, 0x206) := by
  decide
theorem test_return_underflow :
    read (fun t => (t.pc, t.sp.val, t.status, t.stopped)) (step (placed base 0x200 0x00EE)) =
      some (0x202, 0, .execError .stackUnderflow, true) := by decide
theorem test_sys_ignored : read (fun t => (t.pc, t.status)) (step (placed base 0x200 0x0123)) = some (0x202, .ok) := by decide
theorem test_sys_fault :
    read (·.status) (exec (.sys 0x123) (withParams base fun p => { p with sysPolicy := .fault })) =
      some (.execError (.sysUnsupported 0x123)) := by decide
theorem test_jump : read (·.pc) (step (placed base 0x200 0x1ABC)) = some 0xABC := by decide
theorem test_call :
    read (fun t => (t.pc, t.sp.val, t.stack[15])) (step (placed (stacked 15 0) 0x2F0 0x2300)) = some (0x300, 16, 0x2F2) := by decide
theorem test_call_overflow :
    read (fun t => (t.pc, t.sp.val, t.stack[15], t.status)) (step (placed (stacked 16 0x111) 0x2F0 0x2300)) =
      some (0x2F2, 16, 0x111, .execError .stackOverflow) := by decide
theorem test_jump_offset : read (·.pc) (step (placed (base.setV 0 0xFF) 0x200 0xBFFF)) = some 0x10FE := by decide

/-! ## Skips (V7) -/

theorem test_skip_equal_byte : read (·.pc) (step (placed base 0x208 0x3000)) = some 0x20C := by decide
theorem test_skip_equal_byte_not : read (·.pc) (step (placed (base.setV 0 1) 0x208 0x3000)) = some 0x20A := by decide
theorem test_skip_not_equal_byte : read (·.pc) (step (placed (base.setV 0xB 0x11) 0x300 0x4B10)) = some 0x304 := by decide
theorem test_skip_not_equal_byte_not : read (·.pc) (step (placed (base.setV 0xB 0x10) 0x300 0x4B10)) = some 0x302 := by decide
theorem test_skip_equal_register : read (·.pc) (step (placed base 0x200 0x5110)) = some 0x204 := by decide
theorem test_skip_equal_register_not :
    read (·.pc) (step (placed ((base.setV 1 0xFF).setV 2 1) 0x200 0x5120)) = some 0x202 := by decide
theorem test_skip_not_equal_register :
    read (·.pc) (step (placed ((base.setV 0xA 1).setV 0xB 2) 0x200 0x9AB0)) = some 0x204 := by decide
theorem test_skip_not_equal_register_not : read (·.pc) (step (placed base 0x200 0x9110)) = some 0x202 := by decide

/-- D26, U7: a key number above 15 under `not_pressed` and under `refuse`. -/
theorem test_skip_key_press_not_pressed :
    read (·.pc) (step (placed (withParams (base.setV 5 0x10) fun p => { p with keyIndexPolicy := .notPressed }) 0x200 0xE59E)) =
      some 0x202 := by decide
theorem test_skip_key_not_press_not_pressed :
    read (·.pc) (step (placed (withParams (base.setV 5 0x10) fun p => { p with keyIndexPolicy := .notPressed }) 0x200 0xE5A1)) =
      some 0x204 := by decide

/-- V7: the two answers of the keyboard. -/
theorem test_skip_on_key_down : ((base.setPc 0x202).skipIf true).pc = 0x204 ∧ ((base.setPc 0x202).skipIf false).pc = 0x202 := by decide

/-! ## Registers and arithmetic (V8) -/

theorem test_load_byte : read (·.getV 0xF) (exec (.loadByte 0xF 0xFF) base) = some 0xFF := by decide
theorem test_add_byte : read (fun t => (t.getV 0, t.getV 0xF)) (exec (.addByte 0 0xFF) (base.setV 0 1)) = some (0, 0) := by decide
theorem test_load_register : read (·.getV 1) (exec (.loadRegister 1 2) (base.setV 2 0x7C)) = some 0x7C := by decide
theorem test_or : read (fun t => (t.getV 1, t.getV 0xF)) (exec (.orRegister 1 2) (((base.setV 1 0xF0).setV 2 0x0F).setV 0xF 0x55)) =
    some (0xFF, 0x55) := by decide
theorem test_or_resets_vf :
    read (fun t => (t.getV 1, t.getV 0xF)) (exec (.orRegister 1 2)
      (withParams (((base.setV 1 0xF0).setV 2 0x0F).setV 0xF 0x55) fun p => { p with logicResetsVF := true })) =
      some (0xFF, 0x00) := by decide
theorem test_and : read (·.getV 1) (exec (.andRegister 1 2) ((base.setV 1 0xF0).setV 2 0x3C)) = some 0x30 := by decide
theorem test_xor : read (·.getV 1) (exec (.xorRegister 1 1) (base.setV 1 0xA5)) = some 0 := by decide
theorem test_add : read (fun t => (t.getV 1, t.getV 0xF)) (exec (.addRegister 1 2) ((base.setV 1 0xFF).setV 2 0xFF)) =
    some (0xFE, 1) := by decide
theorem test_add_to_vf : read (·.getV 0xF) (exec (.addRegister 0xF 1) ((base.setV 0xF 0x03).setV 1 0x02)) = some 0 := by decide
theorem test_sub : read (fun t => (t.getV 1, t.getV 0xF)) (exec (.subRegister 1 2) (base.setV 2 1)) = some (0xFF, 0) := by decide
theorem test_sub_equal : read (fun t => (t.getV 1, t.getV 0xF)) (exec (.subRegister 1 2) ((base.setV 1 0x42).setV 2 0x42)) =
    some (0, 1) := by decide
theorem test_sub_n : read (fun t => (t.getV 1, t.getV 0xF)) (exec (.subNRegister 1 2) ((base.setV 1 3).setV 2 0xA)) =
    some (7, 1) := by decide
theorem test_shift_right : read (fun t => (t.getV 1, t.getV 0xF)) (exec (.shiftRight 1 2) ((base.setV 1 5).setV 2 0xF0)) =
    some (2, 1) := by decide
theorem test_shift_right_vy :
    read (fun t => (t.getV 1, t.getV 0xF)) (exec (.shiftRight 1 2)
      (withParams ((base.setV 1 5).setV 2 0xF0) fun p => { p with shiftUsesVy := true })) = some (0x78, 0) := by decide
theorem test_shift_left : read (fun t => (t.getV 1, t.getV 0xF)) (exec (.shiftLeft 1 2) (base.setV 1 0x81)) = some (2, 1) := by decide
theorem test_shift_left_vf : read (·.getV 0xF) (exec (.shiftLeft 0xF 0) (base.setV 0xF 0x80)) = some 1 := by decide
theorem test_random_mask_zero (s : State) : read (·.getV 3) (exec (.random 3 0x00) s) = some 0 := by
  simp [exec, execRandom, read, State.getV, State.setV]
theorem test_random_runs : read (·.pc) (step (placed base 0x200 0xC30F)) = some 0x202 := by decide

/-! ## Index, memory, sprite (V9) -/

theorem test_load_index : read (·.i) (exec (.loadIndex 0xFFF) base) = some 0xFFF := by decide
theorem test_add_index : read (fun t => (t.i, t.getV 0xF)) (exec (.addIndex 2) ((base.setI 0xFFF).setV 2 1)) = some (0x1000, 0) := by
  decide
theorem test_add_index_vf :
    read (fun t => (t.i, t.getV 0xF)) (exec (.addIndex 2)
      (withParams ((base.setI 0xFFF).setV 2 1) fun p => { p with addindexSetsVF := true })) = some (0x1000, 1) := by decide
theorem test_load_font : read (·.i) (exec (.loadFont 0xA) (base.setV 0xA 0xA)) = some 0x82 := by decide
theorem test_store_bcd :
    read (·.mem) (exec (.storeBcd 0) ((base.setV 0 0xFF).setI 0xFFD)) = some [(0xFFD, 2), (0xFFE, 5), (0xFFF, 5)] := by decide
theorem test_store_bcd_above :
    read (fun t => (t.mem, t.status)) (exec (.storeBcd 0) (base.setI 0xFFE)) = some ([], .execError (.memOutOfBounds 0x1000)) := by
  decide
theorem test_store_registers :
    read (fun t => (t.mem, t.i)) (exec (.storeRegisters 1) (((base.setV 0 0x12).setV 1 0x0A).setI 0x20A)) =
      some ([(0x20A, 0x12), (0x20B, 0x0A)], 0x20A) := by decide
theorem test_store_registers_increments :
    read (·.i) (exec (.storeRegisters 1)
      (withParams (((base.setV 0 0x12).setV 1 0x0A).setI 0x20A) fun p => { p with loadstoreIncrementsI := true })) = some 0x20C := by
  decide
theorem test_load_registers :
    read (fun t => (t.getV 0, t.getV 1, t.getV 2, t.getV 3)) (exec (.loadRegisters 2)
      { (base.setV 3 0x77).setI 0x300 with mem := [(0x300, 2), (0x301, 5), (0x302, 4), (0x303, 0x99)] }) =
      some (2, 5, 4, 0x77) := by decide
theorem test_load_registers_above :
    read (fun t => (t.v, t.status)) (exec (.loadRegisters 0) (base.setI 0x1000)) =
      some (base.v, .execError (.memOutOfBounds 0x1000)) := by decide
theorem test_display_sprite :
    read (·.rendered) (exec (.displaySprite 0xD 0xB 5)
      { base.setI 0x300 with mem := [(0x300, 0xF0), (0x301, 0x90), (0x302, 0x90), (0x303, 0x90), (0x304, 0xF0)] }) =
      some [.draw 0 0 [0xF0, 0x90, 0x90, 0x90, 0xF0]] := by decide
theorem test_display_sprite_above :
    read (fun t => (t.rendered, t.status)) (exec (.displaySprite 0 1 2) (base.setI 0xFFF)) =
      some ([], .execError (.memOutOfBounds 0x1000)) := by decide

/-! ## Timers and keys (V10) -/

theorem test_load_delay : read (·.dt) (exec (.loadDelay 0xC) (base.setV 0xC 0x3C)) = some 0x3C := by decide
theorem test_load_from_delay : read (fun t => (t.getV 3, t.dt)) (exec (.loadFromDelay 3) (base.setDt 0x3B)) = some (0x3B, 0x3B) := by
  decide
theorem test_load_sound : read (·.st) (exec (.loadSound 1) (base.setV 1 5)) = some 5 := by decide
theorem test_tick : (fun t : State => (t.dt, t.st)) (base.setDt 0x3C).tick = (0x3B, 0) := by decide
theorem test_three_ticks : (fun t : State => (t.dt, t.st)) (((base.setDt 2).setSt 5).tickMany 3) = (0, 2) := by decide
theorem test_load_key_press_none : ((base.setPc 0x202).takeKey 4 none).pc = 0x200 := by decide
theorem test_load_key_press_some :
    ((base.setPc 0x202).takeKey 4 (some 7)).getV 4 = 7 ∧ ((base.setPc 0x202).takeKey 4 (some 7)).pc = 0x202 := by decide

/-! ## Witnesses: concrete values that meet the hypotheses of each statement, clause by clause, at the boundaries -/

/-- A running state at the last address of a fetch, with the word `w` there. -/
def top (w : Nat) : State := placed base 0xFFE w

theorem witness_DecodeInvertsEncode : WellFormed (.sys 0xFFF) = true ∧ WellFormed (.loadRegisters 0xF) = true := by decide
theorem witness_EncodeInvertsDecode : decode 0xFF65 = .decoded (.loadRegisters 0xF) ∧ decode 0x0001 = .decoded (.sys 0x001) := by
  decide
theorem witness_DecodeOutcomes :
    (0x00EE#16 ≠ 0 ∧ opcodeTable[1]? = some ⟨0x00EE, 0xFFFF, .z, .ret⟩ ∧ 0x00EE#16 &&& 0xFFFF = 0x00EE ∧
      ∀ j : Fin 1, (opcodeTable[j.val]?).all (fun r => 0x00EE#16 &&& r.mask != r.expected)) ∧
    (0xFF65#16 &&& 0xF0FF = 0xF065 ∧ opcodeTable[34]? = some ⟨0xF065, 0xF0FF, .x, .loadRegisters⟩ ∧
      ∀ j : Fin 34, (opcodeTable[j.val]?).all (fun r => 0xFF65#16 &&& r.mask != r.expected)) := by decide
theorem witness_OnlyTwoWordsMatchTwoRows :
    (opcodeTable[0]?.all (·.hit 0x00E0) && opcodeTable[2]?.all (·.hit 0x00E0) &&
      opcodeTable[1]?.all (·.hit 0x00EE) && opcodeTable[2]?.all (·.hit 0x00EE)) = true := by decide
theorem witness_DispatchPorts :
    decode 0x0000 = .noOp ∧ decode 0xFFFF = .unknownOpcode 0xFFFF ∧ firstIndex 0xFF65 = some 34 ∧ firstIndex 0x00E0 = some 0 := by
  decide
theorem witness_DecodeRulesOfFlow :
    fF000 0x0FFF = 0x0 ∧ decode 0x0001 = .decoded (.sys 0x001) ∧ fF000 0x1FFF = 0x1 ∧ fF000 0x2000 = 0x2 ∧ fF000 0xBFFF = 0xB := by
  decide
theorem witness_DecodeRulesOfSkips :
    fF000 0x3FFF = 0x3 ∧ fF000 0x4000 = 0x4 ∧ (fF000 0x5FF0 = 0x5 ∧ f000F 0x5FF0 = 0) ∧ (fF000 0x5FF1 = 0x5 ∧ f000F 0x5FF1 ≠ 0) ∧
    (fF000 0x9FF0 = 0x9 ∧ f000F 0x9FF0 = 0) ∧ (fF000 0x900F = 0x9 ∧ f000F 0x900F ≠ 0) ∧
    (fF000 0xEF9E = 0xE ∧ f00FF 0xEF9E = 0x9E) ∧ (fF000 0xE0A1 = 0xE ∧ f00FF 0xE0A1 = 0xA1) ∧
    (fF000 0xE0A0 = 0xE ∧ f00FF 0xE0A0 ≠ 0x9E ∧ f00FF 0xE0A0 ≠ 0xA1) := by decide
theorem witness_DecodeRulesOfAlu :
    fF000 0x6FFF = 0x6 ∧ fF000 0x7000 = 0x7 ∧ fF000 0xCFFF = 0xC ∧
    [0x8FF0#16, 0x8FF1, 0x8FF2, 0x8FF3, 0x8FF4, 0x8FF5, 0x8FF6, 0x8FF7, 0x8FFE].map (fun w => (fF000 w, f000F w)) =
      [(8, 0), (8, 1), (8, 2), (8, 3), (8, 4), (8, 5), (8, 6), (8, 7), (8, 0xE)] ∧
    fF000 0x8FF8 = 0x8 ∧ f000F 0x8FF8 = 0x8 ∧ fF000 0x800F = 0x8 ∧ f000F 0x800F = 0xF := by decide
theorem witness_DecodeRulesOfClassesADF :
    fF000 0xAFFF = 0xA ∧ fF000 0xD000 = 0xD ∧
    [0xFF07#16, 0xFF0A, 0xFF15, 0xFF18, 0xFF1E, 0xFF29, 0xFF33, 0xFF55, 0xFF65, 0xF066].map (fun w => (fF000 w, f00FF w)) =
      [(0xF, 0x07), (0xF, 0x0A), (0xF, 0x15), (0xF, 0x18), (0xF, 0x1E), (0xF, 0x29), (0xF, 0x33), (0xF, 0x55), (0xF, 0x65),
       (0xF, 0x66)] := by decide
theorem witness_BootLoadsRomOverReset : (List.replicate 3584 (0xFF#8)).length ≤ 3584 ∧ ([] : List Byte).length ≤ 3584 :=
  ⟨Nat.le_of_eq List.length_replicate, Nat.zero_le _⟩
theorem witness_OversizeRomIsRejectedOrTruncated :
    3584 < (List.replicate 3585 (0xFF#8)).length ∧ defaultParams.romOversizePolicy = .reject ∧
    ({ defaultParams with romOversizePolicy := .truncate } : Params).romOversizePolicy = .truncate := by
  exact ⟨by rw [List.length_replicate]; decide, rfl, rfl⟩
theorem witness_FetchReadsAndAdvancesOrHalts : (top 0x1ABC).pc.toNat ≤ 0xFFE ∧ 0xFFE < (base.setPc 0xFFF).pc.toNat := by decide
theorem witness_StepRunsDecodedInstruction :
    (top 0x1ABC).Running ∧ (top 0x1ABC).pc.toNat ≤ 0xFFE ∧ decode (top 0x1ABC).fetchWord = .decoded (.jump 0xABC) := by
  unfold State.Running; decide
theorem witness_NoOpStepOnlyAdvances : base.Running ∧ base.pc.toNat ≤ 0xFFE ∧ base.fetchWord = 0 := by
  unfold State.Running; decide
theorem witness_UnknownOpcodeStep :
    (top 0xFFFF).Running ∧ (top 0xFFFF).pc.toNat ≤ 0xFFE ∧ decode (top 0xFFFF).fetchWord = .unknownOpcode 0xFFFF := by
  unfold State.Running; decide
theorem witness_FetchOutOfBoundsStep : (base.setPc 0xFFF).Running ∧ 0xFFE < (base.setPc 0xFFF).pc.toNat := by
  unfold State.Running; decide
theorem witness_HaltedOrEndedTakesNoStep :
    base.raiseFetch.halt = true ∧ (base.raiseUnknown 0xFFFF).halt = false ∧ (base.raiseUnknown 0xFFFF).stopped = true := by decide
theorem witness_FetchBelowProgramArea :
    (base.setPc 0x1FF).halt = false ∧ (base.setPc 0x1FF).stopped = false ∧ (base.setPc 0x1FF).pc.toNat < 0x200 ∧
    (base.setPc 0x1FF).params.allowLowFetch = false ∧
    (withParams (base.setPc 0x1FF) fun p => { p with allowLowFetch := true }).params.allowLowFetch = true := by decide
theorem witness_StoredWordIsFetched :
    (base.setI 0x200).MemoryOk ∧ (base.setI 0x200).ea 1 ≤ 0xFFF ∧
    read (fun t => t.pc.toNat == (base.setI 0x200).ea 0) (exec (.storeRegisters 1) (base.setI 0x200)) = some true := by
  unfold State.MemoryOk; decide
theorem witness_EveryStepKeepsMemoryOk :
    (placed (base.setI 0xFFD) 0x200 0xF033).MemoryOk ∧ read (·.i) (step (placed (base.setI 0xFFD) 0x200 0xF033)) = some 0xFFD := by
  unfold State.MemoryOk; decide
theorem witness_EveryStepKeepsPcBounded :
    (placed base 0xFFE 0x3000).PcBounded ∧ read (·.pc) (step (placed base 0xFFE 0x3000)) = some 0x1002 := by
  unfold State.PcBounded
  refine ⟨⟨by decide, ?_⟩, by decide⟩
  intro k h
  simp [placed, base, State.withFetchWord, State.placeWord, State.fetchInBounds, State.place, State.setPc, State.reset]
theorem witness_EveryStepKeepsStopsExplained :
    (base.setPc 0xFFF).HaltExplained ∧ (base.setPc 0xFFF).StopExplained ∧ read (·.halt) (step (base.setPc 0xFFF)) = some true := by
  unfold State.HaltExplained State.StopExplained
  exact ⟨nofun, nofun, by decide⟩
theorem witness_NoStepChangesParams : read (·.pc) (step base) = some 0x202 := by decide
theorem witness_OnlyStoresWriteMemory :
    read (·.i) (exec (.loadIndex 0x300) base) = some 0x300 ∧ (∀ x, Instr.loadIndex 0x300 ≠ .storeBcd x) ∧
    (∀ x, Instr.loadIndex 0x300 ≠ .storeRegisters x) := ⟨by decide, nofun, nofun⟩
theorem witness_OnlyCallAndReturnTouchTheStack :
    read (·.pc) (exec (.jump 0x300) base) = some 0x300 ∧ (∀ a, Instr.jump 0x300 ≠ .call a) ∧ Instr.jump 0x300 ≠ .ret :=
  ⟨by decide, nofun, nofun⟩
theorem witness_SpecialRegisterWriters :
    read (fun t => t.i != base.i) (exec (.loadIndex 0x300) base) = some true ∧
    read (fun t => t.dt != base.dt) (exec (.loadDelay 1) (base.setV 1 5)) = some true ∧
    read (fun t => t.st != base.st) (exec (.loadSound 1) (base.setV 1 5)) = some true ∧
    read (fun t => t.rendered != base.rendered) (exec .clearScreen base) = some true := by decide
theorem witness_FailingInstructionIsPrecise :
    base.status = .ok ∧ read (·.status) (exec .ret base) = some (.execError .stackUnderflow) := by decide
theorem witness_OnlyLoadFromDelaySeesATimer :
    (∀ x, Instr.loadDelay 1 ≠ .loadFromDelay x) ∧ read (·.dt) (exec (.loadDelay 1) (base.setV 1 5)) = some 5 :=
  ⟨nofun, by decide⟩
theorem witness_ReturnPopsPc : 0 < (stacked 16 0xFFFF).sp.val ∧ base.sp.val = 0 := by decide
theorem witness_SysFollowsItsPolicy :
    base.params.sysPolicy = .ignore ∧ (withParams base fun p => { p with sysPolicy := .fault }).params.sysPolicy = .fault := by decide
theorem witness_CallPushesPc : (stacked 15 0).sp.val < 16 ∧ (stacked 16 0).sp.val = 16 := by decide
theorem witness_ReturnUndoesCall : (stacked 15 0).sp.val < 16 := by decide
theorem witness_KeySkips :
    ((base.setV 5 0xF).getV 5).toNat ≤ 0xF ∧ 0xF < ((base.setV 5 0x10).getV 5).toNat ∧
    (withParams base fun p => { p with keyIndexPolicy := .maskLowNibble }).params.keyIndexPolicy = .maskLowNibble ∧
    (withParams base fun p => { p with keyIndexPolicy := .notPressed }).params.keyIndexPolicy = .notPressed ∧
    (withParams base fun p => { p with keyIndexPolicy := .refuse }).params.keyIndexPolicy = .refuse := by decide
theorem witness_KeyNumberAboveFifteenRuns :
    0xF < ((base.setV 5 0x10).getV 5).toNat ∧ (base.setV 5 0x10).params.keyIndexPolicy = .anyAnswer := by decide
theorem witness_LogicInstructions :
    (Instr.xorRegister 1 2, (base.getV 1 ^^^ base.getV 2)) ∈
      [(Instr.orRegister 1 2, base.getV 1 ||| base.getV 2), (.andRegister 1 2, base.getV 1 &&& base.getV 2),
       (.xorRegister 1 2, base.getV 1 ^^^ base.getV 2)] ∧
    base.params.logicResetsVF = false ∧
    (withParams base fun p => { p with logicResetsVF := true }).params.logicResetsVF = true := by decide
theorem witness_ShiftsSetTheBitShiftedOut :
    0x81#8 = (if ((base.setV 1 0x81).setV 2 0x7F).params.shiftUsesVy then ((base.setV 1 0x81).setV 2 0x7F).getV 2
      else ((base.setV 1 0x81).setV 2 0x7F).getV 1) := by decide
theorem witness_IndexWrites :
    base.params.addindexSetsVF = false ∧
    (withParams base fun p => { p with addindexSetsVF := true }).params.addindexSetsVF = true := by decide
theorem witness_LoadFontOfADigit : ((base.setV 5 0xF).getV 5).toNat ≤ 0xF := by decide
theorem witness_LoadFontAboveFifteenRuns : 0xF < ((base.setV 5 0x10).getV 5).toNat := by decide
theorem witness_DisplaySpriteDraws :
    (0#4).toNat = 0 ∧ (base.setI 0xFFF).ea ((1#4).toNat - 1) ≤ 0xFFF ∧ (2#4).toNat ≠ 0 ∧
    0xFFF < (base.setI 0xFFF).ea ((2#4).toNat - 1) := by decide
theorem witness_StoreBcdWritesDigits :
    (base.setI 0xFFD).MemoryOk ∧ (base.setI 0xFFD).ea 2 ≤ 0xFFF ∧ 0xFFF < (base.setI 0xFFE).ea 2 := by
  unfold State.MemoryOk; decide
theorem witness_StoreRegistersWritesTheRun :
    (base.setI 0xFF0).MemoryOk ∧ (base.setI 0xFF0).ea (0xF#4).toNat ≤ 0xFFF ∧ 0xFFF < (base.setI 0xFF1).ea (0xF#4).toNat := by
  unfold State.MemoryOk; decide
theorem witness_LoadRegistersReadsTheRun :
    (base.setI 0xFFF).ea (0#4).toNat ≤ 0xFFF ∧ 0xFFF < (base.setI 0x1000).ea (0#4).toNat := by decide
theorem witness_AccessAboveMemoryRaises :
    (∀ j : Fin 2, (base.setI 0xFFE).ea j.val ≤ 0xFFF) ∧ 0xFFF < (base.setI 0xFFE).ea 2 ∧ 2 < (3#4).toNat ∧ 2 < (2#4).toNat + 1 := by
  decide

end Sys2Proof.Tests
end

/-! What no instruction writes but by reporting an error: the parameters (`00_scope.md` R10), and with them the other items through which
the sequencer and the environment govern a run. -/

namespace Sys2Proof.Machine

/-- The items of State that decide whether and how the run goes on, and those that tell the environment about it. -/
structure Control where
  /-- `HALT` (R35). -/
  halt : Bool
  /-- The last step's result (R240). -/
  status : Status
  /-- The run was ended by policy (R130). -/
  stopped : Bool
  /-- The illegal words logged (R242). -/
  log : List Word
  /-- The named arguments of the model (R10). -/
  params : Params

/-- The part of a state that `Control` names. -/
def State.control (s : State) : Control where
  halt := s.halt
  status := s.status
  stopped := s.stopped
  log := s.log
  params := s.params

variable (s : State)

/-! ## The updates that branch or recurse -/

theorem State.logicVF_control : s.logicVF.control = s.control := by
  unfold State.logicVF
  split <;> rfl

theorem State.indexVF_control (u : Byte) : (s.indexVF u).control = s.control := by
  unfold State.indexVF
  split <;> rfl

theorem State.takeKey_control (x : Register) (key : Option (BitVec 4)) : (s.takeKey x key).control = s.control := by
  cases key <;> rfl

theorem State.drawSprite_control (x y : Register) (rows : List Byte) : (s.drawSprite x y rows).control = s.control := by
  cases rows <;> rfl

theorem State.setRegisters_control (k : Nat) (us : List Byte) : (s.setRegisters k us).control = s.control := by
  rw [State.setRegisters_frame]
  rfl

/-! ## One instruction, one step -/

variable {s} {t : State}

theorem next_unique {u : State} {o : Out} (ht : o = .next t) (hu : o = .next u) : t = u :=
  Host.Outcome.next.inj (ht.symm.trans hu)

/-- An instruction either reports an error, in the state the fetch left, or leaves all of `Control` alone (R249, D36). -/
theorem exec_reports_or_keeps_control {i : Instr} (h : exec i s = .next t) :
    (∃ e, t = s.raiseExec e) ∨ t.control = s.control := by
  cases i with
  | ret =>
    rcases exec_ret_cases s with ⟨-, he⟩ | ⟨_, _, -, he⟩
    · exact .inl ⟨_, next_unique h he⟩
    · exact .inr (next_unique h he ▸ rfl)
  | sys nnn =>
    rcases exec_sys_cases s nnn with ⟨-, he⟩ | ⟨-, he⟩
    · exact .inr (next_unique h he ▸ rfl)
    · exact .inl ⟨_, next_unique h he⟩
  | call nnn =>
    rcases exec_call_cases s nnn with ⟨-, he⟩ | ⟨_, _, he⟩
    · exact .inl ⟨_, next_unique h he⟩
    · exact .inr (next_unique h he ▸ rfl)
  | displaySprite x y n =>
    rcases exec_displaySprite_cases s x y n with ⟨-, -, he⟩ | ⟨-, he⟩
    · exact .inl ⟨_, next_unique h he⟩
    · exact .inr (next_unique h he ▸ s.drawSprite_control x y _)
  | storeBcd x =>
    rcases exec_storeBcd_cases s x with ⟨-, he⟩ | ⟨-, he⟩
    · exact .inl ⟨_, next_unique h he⟩
    · exact .inr (next_unique h he ▸ rfl)
  | storeRegisters x =>
    rcases exec_storeRegisters_cases s x with ⟨-, he⟩ | ⟨-, he⟩
    · exact .inl ⟨_, next_unique h he⟩
    · exact .inr (next_unique h he ▸ rfl)
  | loadRegisters x =>
    rcases exec_loadRegisters_cases s x with ⟨-, he⟩ | ⟨-, he⟩
    · exact .inl ⟨_, next_unique h he⟩
    · exact .inr (next_unique h he ▸ s.setRegisters_control 0 _)
  | skipKeyPress x =>
    obtain ⟨_, -, rfl⟩ := (exec_key_skips s x).1 h
    exact .inr rfl
  | skipKeyNotPress x =>
    obtain ⟨_, -, rfl⟩ := (exec_key_skips s x).2 h
    exact .inr rfl
  | loadKeyPress x => exact .inr (Host.Outcome.next.inj h ▸ s.draw.takeKey_control x _)
  | orRegister | andRegister | xorRegister => exact .inr (Host.Outcome.next.inj h ▸ State.logicVF_control _)
  | addIndex => exact .inr (Host.Outcome.next.inj h ▸ State.indexVF_control _ _)
  | clearScreen | jump | jumpOffset | skipEqualByte | skipNotEqualByte | skipEqualRegister | skipNotEqualRegister
  | loadByte | addByte | loadRegister | addRegister | subRegister | shiftRight | subNRegister | shiftLeft | random
  | loadIndex | loadFont | loadFromDelay | loadDelay | loadSound => exact .inr (Host.Outcome.next.inj h ▸ rfl)

theorem exec_params {i : Instr} (h : exec i s = .next t) : t.params = s.params := by
  rcases exec_reports_or_keeps_control h with ⟨e, rfl⟩ | hc
  · exact s.raiseExec_params e
  · exact congrArg Control.params hc

theorem step_params (h : step s = .next t) : t.params = s.params := by
  obtain ⟨-, ⟨-, rfl⟩ | ⟨-, -, rfl⟩ | ⟨w, -, -, rfl⟩ | ⟨i, -, -, he⟩⟩ := step_cases h
  · simp
  · simp
  · simp
  · simpa using exec_params he

/-- Settles O28: `step_cases` leaves the driver's ticks, the fetch and one report or one instruction, and `exec_params` covers the
instruction. -/
theorem noStepChangesParams : Obligations.NoStepChangesParams :=
  fun _ _ => step_params

end Sys2Proof.Machine

/-! The items of State that decide which words are fetched next: what an instruction does to memory (`10_state.md` R38), to `PC` (R28) and
to the stack (R32), said once for all instructions. -/

namespace Sys2Proof.Machine

/-- Memory, `PC` and the stack. -/
structure Flow where
  /-- `MEM` (R38). -/
  mem : Memory
  /-- `PC` (R27). -/
  pc : Word
  /-- `STACK` (R29). -/
  stack : Vector Word 16
  /-- `SP` (R29). -/
  sp : Fin 17

/-- The part of a state that `Flow` names. -/
def State.flow (s : State) : Flow where
  mem := s.mem
  pc := s.pc
  stack := s.stack
  sp := s.sp

/-- All that an instruction can do to `Flow`. -/
inductive FlowEffect (f : Flow) : Instr → Flow → Prop where
  /-- Nothing; an error and a skip not taken change nothing here either (R249). -/
  | kept (i : Instr) : FlowEffect f i f
  /-- `StoreBcd` writes three bytes inside `MEM` (R219). -/
  | storedBcd (x : Register) (a : Nat) (us : List Byte) (inside : a + us.length ≤ 0x1000) :
      FlowEffect f (.storeBcd x) { f with mem := f.mem.writeAll a us }
  /-- `StoreRegisters` writes its run inside `MEM` (R221). -/
  | storedRegisters (x : Register) (a : Nat) (us : List Byte) (inside : a + us.length ≤ 0x1000) :
      FlowEffect f (.storeRegisters x) { f with mem := f.mem.writeAll a us }
  /-- A skip taken (R161 to R171). -/
  | skipped (i : Instr) : FlowEffect f i { f with pc := f.pc + 2 }
  /-- The wait for a key goes on (R233). -/
  | waited (x : Register) : FlowEffect f (.loadKeyPress x) { f with pc := f.pc - 2 }
  /-- `Jump` (R147). -/
  | jumped (nnn : Address) : FlowEffect f (.jump nnn) { f with pc := target nnn }
  /-- `JumpOffset` (R151). -/
  | jumpedOffset (nnn : Address) (u : Byte) : FlowEffect f (.jumpOffset nnn) { f with pc := target nnn + u.setWidth 16 }
  /-- `Call` pushes `PC` at the entry `SP` names (R149). -/
  | called (nnn : Address) (h : f.sp.val < 16) (h' : f.sp.val + 1 < 17) :
      FlowEffect f (.call nnn) { f with pc := target nnn, stack := f.stack.set f.sp.val f.pc h, sp := ⟨f.sp.val + 1, h'⟩ }
  /-- `Return` takes `PC` from the newest entry, which stays in place (R143). -/
  | returned (h : f.sp.val - 1 < 16) (h' : f.sp.val - 1 < 17) :
      FlowEffect f .ret { f with pc := f.stack[f.sp.val - 1], sp := ⟨f.sp.val - 1, h'⟩ }

variable (s : State)

/-! ## The updates that branch or recurse -/

theorem State.logicVF_flow : s.logicVF.flow = s.flow := by simp [State.flow]

theorem State.indexVF_flow (u : Byte) : (s.indexVF u).flow = s.flow := by simp [State.flow]

theorem State.drawSprite_flow (x y : Register) (rows : List Byte) : (s.drawSprite x y rows).flow = s.flow := by
  rcases s.drawSprite_cases x y rows with ⟨-, he⟩ | ⟨-, he⟩ <;> rw [he] <;> rfl

theorem State.setRegisters_flow (k : Nat) (us : List Byte) : (s.setRegisters k us).flow = s.flow := by
  rw [State.setRegisters_frame]
  rfl

theorem State.skipIf_flow (i : Instr) (c : Bool) : FlowEffect s.flow i (s.skipIf c).flow := by
  cases c
  · exact .kept i
  · exact .skipped i

theorem State.takeKey_flow (x : Register) (key : Option (BitVec 4)) :
    FlowEffect s.flow (.loadKeyPress x) (s.takeKey x key).flow := by
  cases key
  · exact .waited x
  · exact .kept _

/-! ## One instruction -/

variable {s} {t : State} {i : Instr}

theorem FlowEffect.of_eq (h : t.flow = s.flow) : FlowEffect s.flow i t.flow := h ▸ .kept i

/-- Every instruction that answers a next state has one of the effects of `FlowEffect`. -/
theorem exec_flow (h : exec i s = .next t) : FlowEffect s.flow i t.flow := by
  cases i with
  | ret =>
    rcases exec_ret_cases s with ⟨-, he⟩ | ⟨hk, hsp, -, he⟩ <;> obtain rfl := next_unique h he
    · exact .kept _
    · exact .returned hk hsp
  | call nnn =>
    rcases exec_call_cases s nnn with ⟨-, he⟩ | ⟨hk, hsp, he⟩ <;> obtain rfl := next_unique h he
    · exact .kept _
    · exact .called nnn hk hsp
  | sys nnn =>
    rcases exec_sys_cases s nnn with ⟨-, he⟩ | ⟨-, he⟩ <;> obtain rfl := next_unique h he <;> exact .kept _
  | displaySprite x y n =>
    rcases exec_displaySprite_cases s x y n with ⟨-, -, he⟩ | ⟨-, he⟩ <;> obtain rfl := next_unique h he
    · exact .kept _
    · exact .of_eq (s.drawSprite_flow x y _)
  | storeBcd x =>
    rcases exec_storeBcd_cases s x with ⟨-, he⟩ | ⟨hb, he⟩ <;> obtain rfl := next_unique h he
    · exact .kept _
    · exact .storedBcd x (s.ea 0) (bcdDigits (s.getV x)) hb
  | storeRegisters x =>
    rcases exec_storeRegisters_cases s x with ⟨-, he⟩ | ⟨hb, he⟩ <;> obtain rfl := next_unique h he
    · exact .kept _
    · refine .storedRegisters x (s.ea 0) (s.firstRegisters x) ?_
      rw [s.length_firstRegisters]
      exact hb
  | loadRegisters x =>
    rcases exec_loadRegisters_cases s x with ⟨-, he⟩ | ⟨-, he⟩ <;> obtain rfl := next_unique h he
    · exact .kept _
    · exact .of_eq (s.setRegisters_flow 0 _)
  | skipKeyPress x =>
    obtain ⟨down, -, rfl⟩ := (exec_key_skips s x).1 h
    exact s.draw.skipIf_flow _ down
  | skipKeyNotPress x =>
    obtain ⟨down, -, rfl⟩ := (exec_key_skips s x).2 h
    exact s.draw.skipIf_flow _ (!down)
  | skipEqualByte | skipNotEqualByte | skipEqualRegister | skipNotEqualRegister =>
    exact Host.Outcome.next.inj h ▸ s.skipIf_flow _ _
  | loadKeyPress x => exact Host.Outcome.next.inj h ▸ s.draw.takeKey_flow x _
  | jump nnn => exact Host.Outcome.next.inj h ▸ .jumped nnn
  | jumpOffset nnn => exact Host.Outcome.next.inj h ▸ .jumpedOffset nnn _
  | orRegister | andRegister | xorRegister => exact .of_eq (Host.Outcome.next.inj h ▸ State.logicVF_flow _)
  | addIndex => exact .of_eq (Host.Outcome.next.inj h ▸ State.indexVF_flow _ _)
  | clearScreen | loadByte | addByte | loadRegister | addRegister | subRegister | shiftRight | subNRegister | shiftLeft | random
  | loadIndex | loadFont | loadFromDelay | loadDelay | loadSound => exact .of_eq (Host.Outcome.next.inj h ▸ rfl)

end Sys2Proof.Machine

/-! ## What `FlowEffect` keeps -/

namespace Sys2Proof.Machine

variable {s t : State} {f g : Flow} {i : Instr}

/-- Every stack entry is at or below the largest value a fetch's advance gives (R123). -/
def Flow.StackBounded (f : Flow) : Prop := ∀ (k : Nat) (h : k < 16), (f.stack[k]'h).toNat ≤ 0x1000

/-- No instruction writes above `0xFFF`, and the canonical form is kept (R38). -/
theorem FlowEffect.memory_wf (h : FlowEffect f i g) (hf : f.mem.wf = true) : g.mem.wf = true := by
  cases h with
  | storedBcd _ _ _ inside | storedRegisters _ _ _ inside => exact Memory.wf_writeAll hf inside
  | kept | skipped | waited | jumped | jumpedOffset | called | returned => exact hf

/-- Only `Call` and `Return` touch the stack (R32). -/
theorem FlowEffect.stack_sp (h : FlowEffect f i g) (hcall : ∀ a, i ≠ .call a) (hret : i ≠ .ret) :
    g.stack = f.stack ∧ g.sp = f.sp := by
  cases h with
  | called nnn => exact absurd rfl (hcall nnn)
  | returned => exact absurd rfl hret
  | kept | storedBcd | storedRegisters | skipped | waited | jumped | jumpedOffset => exact ⟨rfl, rfl⟩

theorem target_toNat_le (nnn : Address) : (target nnn).toNat ≤ 0xFFF := by
  rw [target, BitVec.toNat_setWidth]
  omega

/-- After a fetch no instruction takes `PC` above `0x10FE`: the largest value is that of `JumpOffset` (R151). -/
theorem FlowEffect.pc_le (h : FlowEffect f i g) (hlo : 2 ≤ f.pc.toNat) (hhi : f.pc.toNat ≤ 0x1000) (hf : f.StackBounded) :
    g.pc.toNat ≤ 0x10FE := by
  cases h with
  | kept | storedBcd | storedRegisters => change f.pc.toNat ≤ _; omega
  | skipped => change (f.pc + 2).toNat ≤ _; bv_omega
  | waited => change (f.pc - 2).toNat ≤ _; bv_omega
  | jumped nnn | called nnn => exact (target_toNat_le nnn).trans (by decide)
  | jumpedOffset nnn u =>
    have ht := target_toNat_le nnn
    change (target nnn + u.setWidth 16).toNat ≤ _
    rw [BitVec.toNat_add, BitVec.toNat_setWidth]
    omega
  | returned hk => exact (hf _ hk).trans (by decide)

/-- `Call` pushes a `PC` the fetch has advanced, so the stack stays bounded (R149). -/
theorem FlowEffect.stackBounded (h : FlowEffect f i g) (hhi : f.pc.toNat ≤ 0x1000) (hf : f.StackBounded) : g.StackBounded := by
  cases h with
  | called nnn hsp =>
    intro k hk
    change (f.stack.set f.sp.val f.pc hsp)[k].toNat ≤ _
    rw [Vector.getElem_set]
    split
    · exact hhi
    · exact hf k hk
  | kept | storedBcd | storedRegisters | skipped | waited | jumped | jumpedOffset | returned => exact hf

/-! ## One step -/

/-- `Flow` after a fetch that advances `PC` (R123). -/
def Flow.fetched (f : Flow) : Flow := { f with pc := f.pc + 2 }

/-- A step that fetches out of bounds leaves `Flow` alone; any other advances `PC` and runs at most one instruction (R122, R123, R126). -/
theorem step_flow (h : step s = .next t) :
    t.flow = s.flow ∨
    (s.pc.toNat ≤ 0xFFE ∧ (t.flow = s.flow.fetched ∨ ∃ i, FlowEffect s.flow.fetched i t.flow)) := by
  obtain ⟨-, ⟨-, rfl⟩ | ⟨hb, -, rfl⟩ | ⟨w, hb, -, rfl⟩ | ⟨i, hb, -, he⟩⟩ := step_cases h
  · exact .inl rfl
  · exact .inr ⟨hb, .inl rfl⟩
  · exact .inr ⟨hb, .inl (by simp [State.flow, Flow.fetched])⟩
  · exact .inr ⟨hb, .inr ⟨i, exec_flow he⟩⟩

/-- Settles O25: a step writes memory through `FlowEffect` alone, whose stores lie inside `MEM`. -/
theorem everyStepKeepsMemoryOk : Obligations.EveryStepKeepsMemoryOk := by
  intro s t hs h
  change t.flow.mem.wf = true
  rcases step_flow h with hf | ⟨-, hf | ⟨i, he⟩⟩
  · exact hf ▸ hs
  · exact hf ▸ hs
  · exact he.memory_wf hs

/-- Settles O26: the fetch leaves `PC` between 2 and `0x1000`, and from there every instruction keeps both bounds. -/
theorem everyStepKeepsPcBounded : Obligations.EveryStepKeepsPcBounded := by
  rintro s t ⟨hpc, hstack⟩ h
  change t.flow.pc.toNat ≤ 0x10FE ∧ t.flow.StackBounded
  rcases step_flow h with hf | ⟨hb, hfetch⟩
  · exact hf ▸ ⟨hpc, hstack⟩
  · have hp : s.flow.fetched.pc.toNat = s.pc.toNat + 2 := by
      change (s.pc + 2).toNat = _
      bv_omega
    rcases hfetch with hf | ⟨i, he⟩
    · exact hf ▸ ⟨by omega, hstack⟩
    · exact ⟨he.pc_le (by omega) (by omega) hstack, he.stackBounded (by omega) hstack⟩

/-- Settles O30: of the instructions only `Call` and `Return` have an effect on the stack, and a fetch writes `PC` or `HALT`. -/
theorem onlyCallAndReturnTouchTheStack : Obligations.OnlyCallAndReturnTouchTheStack := by
  refine ⟨fun i s t h hcall hret => (exec_flow h).stack_sp hcall hret, fun s => ?_⟩
  rcases s.fetchStep_cases with ⟨-, hf⟩ | ⟨-, hf⟩ <;> rw [hf] <;> exact ⟨rfl, rfl⟩

end Sys2Proof.Machine

/-! `HALT` and the end of a run beside their reports (R35, R122, R130). -/

namespace Sys2Proof.Machine

variable {s t : State}

theorem State.haltExplained_of_not_halt (h : s.halt = false) : s.HaltExplained :=
  fun ht => absurd (h.symm.trans ht) Bool.false_ne_true

theorem State.stopExplained_of_not_stopped (h : s.stopped = false) : s.StopExplained :=
  fun ht => absurd (h.symm.trans ht) Bool.false_ne_true

/-- Settles O27: a step starts with `HALT` clear and the run not ended; a failed fetch sets the one with its report, and only
`raiseUnknown` and `raiseExec`, which report, can end the run. -/
theorem everyStepKeepsStopsExplained : Obligations.EveryStepKeepsStopsExplained := by
  intro s t _ _ h
  obtain ⟨hg, hc⟩ := step_cases h
  obtain ⟨hhalt, hstopped, -⟩ := s.gate_eq_none.mp hg
  rcases hc with ⟨hb, rfl⟩ | ⟨-, -, rfl⟩ | ⟨w, -, -, rfl⟩ | ⟨i, -, -, he⟩
  · exact ⟨fun _ => ⟨hb, rfl⟩, State.stopExplained_of_not_stopped (by simpa using hstopped)⟩
  · exact ⟨State.haltExplained_of_not_halt hhalt, State.stopExplained_of_not_stopped hstopped⟩
  · exact ⟨State.haltExplained_of_not_halt (by simpa using hhalt), fun _ => .inl ⟨w, by simp⟩⟩
  · rcases exec_reports_or_keeps_control he with ⟨e, rfl⟩ | hk
    · exact ⟨State.haltExplained_of_not_halt hhalt, fun _ => .inr ⟨e, rfl⟩⟩
    · have hh : t.halt = s.halt := congrArg Control.halt hk
      have hs : t.stopped = s.stopped := congrArg Control.stopped hk
      exact ⟨State.haltExplained_of_not_halt (hh.trans hhalt), State.stopExplained_of_not_stopped (hs.trans hstopped)⟩

end Sys2Proof.Machine

/-! The loader over the reset state (R42, R59, R271). -/

namespace Sys2Proof.Machine

theorem boot_of_fits (p : Params) {rom : List Byte} (h : rom.length ≤ maxRom) :
    boot p rom = .next (State.place { State.reset with params := p } programBase rom) :=
  if_pos h

theorem State.getV_reset (r : Register) : State.reset.getV r = 0 := Vector.getElem_replicate _

/-- Settles O14: inside the image `Memory.read_writeAll_inside`, outside it the reset contents; no other item is the loader's. -/
theorem bootLoadsRomOverReset : Obligations.BootLoadsRomOverReset := by
  intro p rom hlen
  have hfit : programBase + rom.length ≤ 0x1000 := by unfold programBase; omega
  exact ⟨_, boot_of_fits p hlen, fun k hk => Memory.read_writeAll_inside Memory.wf_reset hfit k hk,
    fun a ha => Memory.read_writeAll_outside ha [], State.getV_reset, rfl, rfl, fun k hk => Vector.getElem_replicate hk, rfl, rfl, rfl,
    rfl, rfl⟩

end Sys2Proof.Machine

/-! The timers (R33, R34, R256): what a tick does, and which instructions see one. -/

namespace Sys2Proof.Machine

/-! ## Ticks -/

theorem timerDown_toNat (b : Byte) : (timerDown b).toNat = b.toNat - 1 := by
  unfold timerDown
  split
  · bv_omega
  · omega

/-- Settles O34: both timers go through `timerDown`, each on its own value. -/
theorem tickDecrementsToZero : Obligations.TickDecrementsToZero :=
  fun s => ⟨timerDown_toNat s.dt, timerDown_toNat s.st, rfl, fun u => ⟨s.setDt_st u, s.setSt_dt u⟩⟩

/-! ## The shared operations do not see a timer -/

/-- The same state with other timers. -/
def State.withTimers (s : State) (d u : Byte) : State := { s with dt := d, st := u }

variable (s : State) (d u : Byte)

@[simp] theorem State.withTimers_pc : (s.withTimers d u).pc = s.pc := rfl
@[simp] theorem State.withTimers_params : (s.withTimers d u).params = s.params := rfl
@[simp] theorem State.withTimers_ea (k : Nat) : (s.withTimers d u).ea k = s.ea k := rfl
@[simp] theorem State.withTimers_firstRegisters (x : Register) : (s.withTimers d u).firstRegisters x = s.firstRegisters x := rfl

theorem State.logicVF_withTimers : (s.withTimers d u).logicVF = s.logicVF.withTimers d u :=
  (apply_ite (State.withTimers · d u) (s.params.logicResetsVF = true) (s.setVF 0) s).symm

theorem State.indexVF_withTimers (b : Byte) : (s.withTimers d u).indexVF b = (s.indexVF b).withTimers d u :=
  (apply_ite (State.withTimers · d u) (s.params.addindexSetsVF = true) (s.setVF b) s).symm

theorem State.takeKey_withTimers (x : Register) (key : Option (BitVec 4)) :
    (s.withTimers d u).takeKey x key = (s.takeKey x key).withTimers d u := by
  cases key <;> rfl

theorem State.drawSprite_withTimers (x y : Register) (rows : List Byte) :
    (s.withTimers d u).drawSprite x y rows = (s.drawSprite x y rows).withTimers d u := by
  cases rows <;> rfl

theorem State.setRegisters_withTimers (k : Nat) (us : List Byte) :
    (s.withTimers d u).setRegisters k us = (s.setRegisters k us).withTimers d u := by
  induction us generalizing s k with
  | nil => rfl
  | cons b us ih => exact ih (s.setV (BitVec.ofNat 4 k) b) (k + 1)

theorem State.stackPush_withTimers (a : Word) :
    (s.withTimers d u).stackPush a = (s.stackPush a).map (·.withTimers d u) := by
  rcases s.stackPush_cases a with ⟨h, _, he⟩ | ⟨h, he⟩ <;> rw [he]
  · exact dif_pos h
  · exact dif_neg h.not_lt

theorem State.stackPop_withTimers :
    (s.withTimers d u).stackPop = s.stackPop.map fun p => (p.1, p.2.withTimers d u) := by
  rcases s.stackPop_cases with ⟨_, _, h, he⟩ | ⟨h, he⟩ <;> rw [he]
  · exact dif_neg h.ne'
  · exact dif_pos h

theorem State.loadBytes_withTimers (a n : Nat) : (s.withTimers d u).loadBytes a n = s.loadBytes a n := by
  induction n generalizing a with
  | zero => rfl
  | succ n ih =>
    simp only [State.loadBytes, ih]
    rfl

theorem State.memWrite_withTimers (a : Nat) (b : Byte) :
    (s.withTimers d u).memWrite a b = (s.memWrite a b).map (·.withTimers d u) := by
  rcases s.memWrite_cases a b with ⟨h, he⟩ | ⟨h, he⟩ <;> rw [he]
  · exact if_neg h.not_gt
  · exact if_pos h

theorem State.storeBytes_withTimers (a : Nat) (us : List Byte) :
    (s.withTimers d u).storeBytes a us = (s.storeBytes a us).map (·.withTimers d u) := by
  induction us generalizing s a with
  | nil => rfl
  | cons b us ih =>
    rw [State.storeBytes, State.storeBytes, State.memWrite_withTimers]
    cases s.memWrite a b with
    | error e => rfl
    | ok t => exact ih t (a + 1)

/-! ## One instruction -/

variable {s d u} {t : State} {i : Instr}

theorem State.finish_withTimers {r r' : Except ExecError State} (hr : r' = r.map (·.withTimers d u)) (h : s.finish r = .next t) :
    (s.withTimers d u).finish r' = .next (t.withTimers d u) := by
  subst hr
  cases r <;> exact Host.Outcome.next.inj h ▸ rfl

theorem exec_skipKeyPress {x : Register} {down : Bool} (h : s.keyAnswer (s.getV x) = some down) :
    exec (.skipKeyPress x) s = .next (s.draw.skipIf down) := by
  simp only [exec, execSkipKeyPress, h]

theorem exec_skipKeyNotPress {x : Register} {down : Bool} (h : s.keyAnswer (s.getV x) = some down) :
    exec (.skipKeyNotPress x) s = .next (s.draw.skipIf (!down)) := by
  simp only [exec, execSkipKeyNotPress, h]

variable (d u) in
/-- Every instruction but `LoadFromDelay` (R231) has the same effect whatever the timers hold. The timers it leaves are `d` and `u`, but
for the one that `LoadDelay` or `LoadSound` writes (R235, R237). -/
theorem exec_withTimers (hi : ∀ x, i ≠ .loadFromDelay x) (h : exec i s = .next t) :
    ∃ d' u', exec i (s.withTimers d u) = .next (t.withTimers d' u') := by
  cases i with
  | loadFromDelay x => exact absurd rfl (hi x)
  | loadDelay x => exact ⟨s.getV x, u, Host.Outcome.next.inj h ▸ rfl⟩
  | loadSound x => exact ⟨d, s.getV x, Host.Outcome.next.inj h ▸ rfl⟩
  | ret =>
    refine ⟨d, u, State.finish_withTimers ?_ h⟩
    rw [State.stackPop_withTimers]
    cases s.stackPop <;> rfl
  | call nnn =>
    refine ⟨d, u, State.finish_withTimers ?_ h⟩
    rw [State.withTimers_pc, State.stackPush_withTimers]
    cases s.stackPush s.pc <;> rfl
  | sys nnn =>
    refine ⟨d, u, State.finish_withTimers ?_ h⟩
    rw [State.withTimers_params]
    cases s.params.sysPolicy <;> rfl
  | displaySprite x y n =>
    refine ⟨d, u, State.finish_withTimers ?_ h⟩
    rw [State.withTimers_ea, State.loadBytes_withTimers]
    cases s.loadBytes (s.ea 0) n.toNat with
    | error e => rfl
    | ok rows => exact congrArg Except.ok (s.drawSprite_withTimers d u x y rows)
  | storeBcd x => exact ⟨d, u, State.finish_withTimers (s.storeBytes_withTimers d u _ _) h⟩
  | storeRegisters x =>
    refine ⟨d, u, State.finish_withTimers ?_ h⟩
    rw [State.withTimers_ea, State.withTimers_firstRegisters, State.storeBytes_withTimers]
    cases s.storeBytes (s.ea 0) (s.firstRegisters x) <;> rfl
  | loadRegisters x =>
    refine ⟨d, u, State.finish_withTimers ?_ h⟩
    rw [State.withTimers_ea, State.loadBytes_withTimers]
    cases s.loadBytes (s.ea 0) (x.toNat + 1) with
    | error e => rfl
    | ok us => exact congrArg (fun t : State => Except.ok (t.advanceI x)) (s.setRegisters_withTimers d u 0 us)
  | skipKeyPress x =>
    obtain ⟨down, hk, rfl⟩ := (exec_key_skips s x).1 h
    exact ⟨d, u, exec_skipKeyPress (s := s.withTimers d u) hk⟩
  | skipKeyNotPress x =>
    obtain ⟨down, hk, rfl⟩ := (exec_key_skips s x).2 h
    exact ⟨d, u, exec_skipKeyNotPress (s := s.withTimers d u) hk⟩
  | loadKeyPress x => exact ⟨d, u, Host.Outcome.next.inj h ▸ congrArg _ (s.draw.takeKey_withTimers d u x _)⟩
  | orRegister | andRegister | xorRegister =>
    obtain rfl := Host.Outcome.next.inj h
    exact ⟨d, u, State.logicVF_withTimers _ d u ▸ rfl⟩
  | addIndex =>
    obtain rfl := Host.Outcome.next.inj h
    exact ⟨d, u, State.indexVF_withTimers _ d u _ ▸ rfl⟩
  | clearScreen | jump | jumpOffset | skipEqualByte | skipNotEqualByte | skipEqualRegister | skipNotEqualRegister
  | loadByte | addByte | loadRegister | addRegister | subRegister | shiftRight | subNRegister | shiftLeft | random
  | loadIndex | loadFont => exact ⟨d, u, Host.Outcome.next.inj h ▸ rfl⟩

/-- Settles O33: `exec_withTimers` gives the second run's state as the first's with other timers. -/
theorem onlyLoadFromDelaySeesATimer : Obligations.OnlyLoadFromDelaySeesATimer := by
  intro i s t d u hi h
  obtain ⟨d', u', he⟩ := exec_withTimers d u hi h
  exact ⟨_, he, rfl⟩

end Sys2Proof.Machine

/-! Memory (`20_memory.md`): which instructions write it, that a fetch reads what was stored, and images it cannot hold. -/

namespace Sys2Proof.Machine

variable {s t : State}

/-! ## What writes memory (R55) -/

/-- Of the effects of `FlowEffect` only the two stores write memory. -/
theorem FlowEffect.mem_eq {f g : Flow} {i : Instr} (h : FlowEffect f i g) (hbcd : ∀ x, i ≠ .storeBcd x)
    (hregs : ∀ x, i ≠ .storeRegisters x) : g.mem = f.mem := by
  cases h with
  | storedBcd x => exact absurd rfl (hbcd x)
  | storedRegisters x => exact absurd rfl (hregs x)
  | kept | skipped | waited | jumped | jumpedOffset | called | returned => rfl

theorem sameBytes_of_mem_eq (h : t.mem = s.mem) : SameBytes s t :=
  fun a => congrArg (Memory.read · a) h

/-- Settles O29: `exec_flow` gives an instruction's effect on memory, and `FlowEffect.mem_eq` leaves the two stores. -/
theorem onlyStoresWriteMemory : Obligations.OnlyStoresWriteMemory := by
  intro i s t h hbcd hregs
  have hm : t.mem = s.mem := (exec_flow h).mem_eq hbcd hregs
  exact ⟨hm, sameBytes_of_mem_eq hm⟩

/-! ## Bytes stored and fetched (R64) -/

theorem fetchStep_fetched_of_le (h : t.pc.toNat ≤ 0xFFE) : t.fetchStep.1 = .fetched (decode t.fetchWord) := by
  rcases t.fetchStep_cases with ⟨-, hf⟩ | ⟨hout, -⟩
  · rw [hf]
  · exact absurd h hout.not_ge

/-- With `PC` at byte `k` of a run written inside `MEM`, the next word is made of bytes `k` and `k + 1` of the run (R52). -/
theorem fetchWord_of_writeAll {a k : Nat} {us : List Byte} (hs : s.MemoryOk) (ha : a + us.length ≤ 0x1000) (hk : k + 1 < us.length)
    (hm : t.mem = s.mem.writeAll a us) (hpc : t.pc.toNat = a + k) : t.fetchWord = us[k] ++ us[k + 1] := by
  have hlo := Memory.read_writeAll_inside hs ha k (by omega)
  have hhi := Memory.read_writeAll_inside hs ha (k + 1) hk
  rw [State.fetchWord, wordOfBytes, hm, hpc, Nat.add_assoc, hlo, hhi]

/-- Settles O24: the fetch lies within bounds and the store takes no error branch, so memory holds the run of registers and
`fetchWord_of_writeAll` reads it. -/
theorem storedWordIsFetched : Obligations.StoredWordIsFetched := by
  intro x s t k hs hx h hk hpc
  have hlast : s.ea 0 + x.toNat ≤ 0xFFF := hx
  have hat : t.pc.toNat = s.ea 0 + k := hpc
  have hlen := s.length_firstRegisters x
  rcases exec_storeRegisters_cases s x with ⟨hout, -⟩ | ⟨-, he⟩
  · have hout' : 0x1000 < s.ea 0 + (x.toNat + 1) := hout
    omega
  · obtain rfl := next_unique h he
    have hw := fetchWord_of_writeAll hs (by omega) (by omega) (State.advanceI_mem _ x) hat
    rw [fetchStep_fetched_of_le (by omega), hw, s.getElem_firstRegisters, s.getElem_firstRegisters]

/-! ## An image above 3584 bytes (R59, D16) -/

section Oversize

variable {p : Params} {rom : List Byte}

theorem boot_reject (h : maxRom < rom.length) (hp : p.romOversizePolicy = .reject) :
    boot p rom = .refused (.romTooLarge rom.length) := by
  simp only [boot, State.loadRom, if_neg h.not_ge, hp]

theorem boot_truncate (h : maxRom < rom.length) (hp : p.romOversizePolicy = .truncate) :
    boot p rom = .next (State.place { State.reset with params := p } programBase (rom.take maxRom)) := by
  simp only [boot, State.loadRom, if_neg h.not_ge, hp]

end Oversize

/-- Settles O15: the image cut by `truncate` fits, so the loader places the same bytes for it. -/
theorem oversizeRomIsRejectedOrTruncated : Obligations.OversizeRomIsRejectedOrTruncated := by
  intro p rom h
  exact ⟨boot_reject h, fun hp => ⟨_, boot_truncate h hp, boot_of_fits p (List.length_take_le maxRom rom)⟩⟩

end Sys2Proof.Machine

/-! The round trip of decoder and encoder (`30_encoding.md` R87, R81), the overlaps of the Opcode Table (R77) and the illegal words
(R80). -/

namespace Sys2Proof

variable {r r' : Row} {w : Word} {i : Instr}

/-! ## Rows that match the same word (R77) -/

/-- Two rows that match one word expect the same bits wherever both masks look. -/
theorem Row.expected_agree_of_hit (h : r.hit w = true) (h' : r'.hit w = true) :
    r.expected &&& r'.mask = r'.expected &&& r.mask := by
  have e : w &&& r.mask = r.expected := beq_iff_eq.mp h
  have e' : w &&& r'.mask = r'.expected := beq_iff_eq.mp h'
  rw [← e, ← e', BitVec.and_assoc, BitVec.and_assoc, BitVec.and_comm r.mask]

/-- Only the rows of `ClearScreen` and `Return` can share a word with a later row, that of `SYS`. -/
theorem overlapping_rows : ∀ j k : Fin opcodeTable.length, j < k →
    opcodeTable[j].expected &&& opcodeTable[k].mask = opcodeTable[k].expected &&& opcodeTable[j].mask →
    (j.val = 0 ∨ j.val = 1) ∧ k.val = 2 := by
  decide

theorem Row.eq_expected_of_hit (hm : r.mask = 0xFFFF) (h : r.hit w = true) : w = r.expected := by
  have e : w &&& r.mask = r.expected := beq_iff_eq.mp h
  rw [← e, hm]
  exact BitVec.and_allOnes.symm

/-- Settles O5: rows that match one word agree under both masks, so they are row 0 or 1 with row 2, and the mask of rows 0 and 1 leaves
no bit of the word free. -/
theorem onlyTwoWordsMatchTwoRows : Obligations.OnlyTwoWordsMatchTwoRows := by
  intro w j k r r' hjk hr hr' h h'
  obtain ⟨hj, rfl⟩ := List.getElem?_eq_some_iff.mp hr
  obtain ⟨hk, rfl⟩ := List.getElem?_eq_some_iff.mp hr'
  obtain ⟨rfl | rfl, rfl⟩ := overlapping_rows ⟨j, hj⟩ ⟨k, hk⟩ hjk (Row.expected_agree_of_hit h h')
  · exact .inl ⟨Row.eq_expected_of_hit rfl h, rfl, rfl⟩
  · exact .inr ⟨Row.eq_expected_of_hit rfl h, rfl, rfl⟩

/-! ## The row a word selects (R104) -/

theorem firstRow_eq_some (h : firstRow w = some r) : r ∈ opcodeTable ∧ r.hit w = true :=
  ⟨List.mem_of_find?_eq_some h, List.find?_some (p := fun q : Row => q.hit w) h⟩

/-- A row that matches a word is selected, but for the row of `SYS` at the two words of `ClearScreen` and `Return`. -/
theorem firstRow_of_hit (hr : r ∈ opcodeTable) (h : r.hit w = true) (hsys : r.op = .sys → w ≠ 0x00E0 ∧ w ≠ 0x00EE) :
    firstRow w = some r := by
  obtain ⟨k, hk, rfl⟩ := List.mem_iff_getElem.mp hr
  refine List.find?_eq_some_iff_getElem.mpr ⟨h, k, hk, rfl, fun j hjk => ?_⟩
  by_contra hj
  have hj' : opcodeTable[j].hit w = true := by simpa using hj
  rcases onlyTwoWordsMatchTwoRows w j k _ _ hjk (List.getElem?_eq_getElem _) (List.getElem?_eq_getElem _) hj' h with
    ⟨hw, -, rfl⟩ | ⟨hw, -, rfl⟩
  · exact (hsys rfl).1 hw
  · exact (hsys rfl).2 hw

theorem decode_of_firstRow (hw : w ≠ 0) (h : firstRow w = some r) : decode w = .decoded (r.build w) := by
  simp only [decode, if_neg hw, h]

theorem decode_eq_decoded (h : decode w = .decoded i) : ∃ r, firstRow w = some r ∧ r.build w = i := by
  unfold decode at h
  split at h
  · cases h
  · split at h
    next r hr => exact ⟨r, hr, DecodeOutcome.decoded.inj h⟩
    next => cases h

/-! ## Decoding what was encoded (R87, R81) -/

/-- Every instruction's own row matches its encoded word and reads its operands back (R73). -/
theorem Laws.Encoded.statement (i : Instr) : Statement i := by
  cases i with
  | clearScreen => exact clearScreen
  | ret => exact ret
  | sys nnn => exact sys nnn
  | jump nnn => exact jump nnn
  | call nnn => exact call nnn
  | skipEqualByte x kk => exact skipEqualByte x kk
  | skipNotEqualByte x kk => exact skipNotEqualByte x kk
  | skipEqualRegister x y => exact skipEqualRegister x y
  | loadByte x kk => exact loadByte x kk
  | addByte x kk => exact addByte x kk
  | loadRegister x y => exact loadRegister x y
  | orRegister x y => exact orRegister x y
  | andRegister x y => exact andRegister x y
  | xorRegister x y => exact xorRegister x y
  | addRegister x y => exact addRegister x y
  | subRegister x y => exact subRegister x y
  | shiftRight x y => exact shiftRight x y
  | subNRegister x y => exact subNRegister x y
  | shiftLeft x y => exact shiftLeft x y
  | skipNotEqualRegister x y => exact skipNotEqualRegister x y
  | loadIndex nnn => exact loadIndex nnn
  | jumpOffset nnn => exact jumpOffset nnn
  | random x kk => exact random x kk
  | displaySprite x y n => exact displaySprite x y n
  | skipKeyPress x => exact skipKeyPress x
  | skipKeyNotPress x => exact skipKeyNotPress x
  | loadFromDelay x => exact loadFromDelay x
  | loadKeyPress x => exact loadKeyPress x
  | loadDelay x => exact loadDelay x
  | loadSound x => exact loadSound x
  | addIndex x => exact addIndex x
  | loadFont x => exact loadFont x
  | storeBcd x => exact storeBcd x
  | storeRegisters x => exact storeRegisters x
  | loadRegisters x => exact loadRegisters x

theorem Op.row_eq_some {op : Op} (h : op.row = some r) : r ∈ opcodeTable ∧ r.op = op :=
  ⟨List.mem_of_find?_eq_some h, by simpa using List.find?_some h⟩

theorem Instr.op_eq_sys (h : i.op = .sys) : ∃ nnn, i = .sys nnn := by
  cases i with
  | sys nnn => exact ⟨nnn, rfl⟩
  | _ => cases h

theorem f0FFF_encode_sys (nnn : Address) : f0FFF (encode (.sys nnn)) = nnn :=
  congrArg Operands.nnn (Laws.Encoded.format_a (op := .sys) nnn (e := 0x0000) rfl).2

/-- The row of `SYS` is the only one that matches the word `0x0000`. -/
theorem op_eq_sys_of_hit_zero : ∀ r ∈ opcodeTable, r.hit 0 = true → r.op = .sys := by decide

/-- A `SYS` that has an encoding is not encoded as `NoOp`, `ClearScreen` or `Return` (R81). -/
theorem encode_sys_ne {nnn : Address} (h : WellFormed (.sys nnn) = true) :
    encode (.sys nnn) ≠ 0 ∧ encode (.sys nnn) ≠ 0x00E0 ∧ encode (.sys nnn) ≠ 0x00EE := by
  simp only [WellFormed, Bool.and_eq_true, bne_iff_ne] at h
  obtain ⟨⟨h0, hE0⟩, hEE⟩ := h
  rw [← f0FFF_encode_sys nnn] at h0 hE0 hEE
  exact ⟨fun e => h0 (congrArg f0FFF e), fun e => hE0 (congrArg f0FFF e), fun e => hEE (congrArg f0FFF e)⟩

theorem decode_encode (h : WellFormed i = true) : decode (encode i) = .decoded i := by
  obtain ⟨hbuild, r, hrow, hhit, hops⟩ := Laws.Encoded.statement i
  obtain ⟨hmem, hop⟩ := Op.row_eq_some hrow
  have hsys : r.op = .sys → encode i ≠ 0 ∧ encode i ≠ 0x00E0 ∧ encode i ≠ 0x00EE := by
    intro e
    obtain ⟨nnn, rfl⟩ := Instr.op_eq_sys (hop ▸ e)
    exact encode_sys_ne h
  have hne : encode i ≠ 0 := fun e => (hsys (op_eq_sys_of_hit_zero r hmem (e ▸ hhit))).1 e
  rw [decode_of_firstRow hne (firstRow_of_hit hmem hhit fun e => (hsys e).2), Row.build, hop, hops, hbuild]

/-- Settles O1: an instruction's own row matches its encoded word and reads its operands back, and it is the first row to match unless
the word is one of the three that `SYS` has no encoding for. -/
theorem decodeInvertsEncode : Obligations.DecodeInvertsEncode :=
  ⟨fun _ => decode_encode, by decide, by decide, by decide⟩

/-! ## Encoding what was decoded (R87, R81) -/

/-- A `SYS` without an encoding does not come back from its word (R81). -/
theorem wellFormed_of_decode_encode (h : decode (encode i) = .decoded i) : WellFormed i = true := by
  cases i with
  | sys nnn =>
    by_contra hwf
    obtain rfl | rfl | rfl : nnn = 0x000 ∨ nnn = 0x0E0 ∨ nnn = 0x0EE := by
      simp only [WellFormed, Bool.and_eq_true, bne_iff_ne] at hwf
      tauto
    all_goals exact absurd h (by decide)
  | _ => rfl

/-- The bits a format leaves to no operand: the mask of its rows (R73). -/
def Format.mask : Format → Word
  | .z => 0xFFFF
  | .a => 0xF000
  | .xk => 0xF000
  | .xy => 0xF00F
  | .xyn => 0xF000
  | .x => 0xF0FF

theorem mask_eq_format_mask : ∀ r ∈ opcodeTable, r.mask = r.format.mask := by decide

/-- A field of a word, put back where it stood, is the word with every other bit cleared. -/
theorem field_in_place (w : Word) (s n : Nat) :
    (w.extractLsb' s n).setWidth 16 <<< s = w &&& ((BitVec.allOnes n).setWidth 16 <<< s) := by
  ext b hb
  by_cases h : b < s
  · simp [h]
  · simp [h, Nat.add_sub_cancel' (Nat.not_lt.mp h), BitVec.getLsbD_eq_getElem hb, Bool.and_comm]

/-- The operands a format reads are all the bits its mask does not look at. -/
theorem Format.bits_operands (f : Format) (w : Word) : (f.operands w).bits = w &&& ~~~f.mask := by
  have hnnn : (f0FFF w).setWidth 16 = w &&& 0x0FFF := by simpa [f0FFF] using field_in_place w 0 12
  have hx : (f0F00 w).setWidth 16 <<< 8 = w &&& 0x0F00 := field_in_place w 8 4
  have hy : (f00F0 w).setWidth 16 <<< 4 = w &&& 0x00F0 := field_in_place w 4 4
  have hn : (f000F w).setWidth 16 = w &&& 0x000F := by simpa [f000F] using field_in_place w 0 4
  have hkk : (f00FF w).setWidth 16 = w &&& 0x00FF := by simpa [f00FF] using field_in_place w 0 8
  cases f <;> simp [Format.operands, Operands.bits, Format.mask, hnnn, hx, hy, hn, hkk, ← BitVec.and_or_distrib_left]

theorem row_of_op : ∀ r ∈ opcodeTable, r.op.row = some r := by decide

theorem Op.op_build (op : Op) (o : Operands) : (op.build o).op = op := by
  cases op <;> rfl

/-- A row's variant keeps every operand the row's format reads (R75). -/
theorem operands_build (w : Word) : ∀ r ∈ opcodeTable, (r.build w).operands = r.format.operands w := by
  intro r hr
  fin_cases hr <;> rfl

theorem encode_build (hr : r ∈ opcodeTable) (h : r.hit w = true) : encode (r.build w) = w := by
  have hexp : (r.build w).op.expected = w &&& r.mask := by
    rw [Row.build, Op.op_build, Op.expected, row_of_op r hr]
    exact (beq_iff_eq.mp h).symm
  calc encode (r.build w) = (w &&& r.mask) ||| (w &&& ~~~r.mask) := by
        rw [encode, hexp, operands_build w r hr, Format.bits_operands, ← mask_eq_format_mask r hr]
    _ = w := by rw [← BitVec.and_or_distrib_left, BitVec.or_not_self, BitVec.and_allOnes]

/-- Settles O2: the selected row's expected bits and the operands its format reads are all the bits of the word; a `SYS` without an
encoding would not decode to itself. -/
theorem encodeInvertsDecode : Obligations.EncodeInvertsDecode := by
  intro w i h
  obtain ⟨r, hr, rfl⟩ := decode_eq_decoded h
  obtain ⟨hmem, hhit⟩ := firstRow_eq_some hr
  have he : encode (r.build w) = w := encode_build hmem hhit
  exact ⟨he, wellFormed_of_decode_encode (he.symm ▸ h)⟩

/-! ## Words that no row matches (R80) -/

/-- The rows whose class nibble is `c`. -/
def classRows (c : BitVec 4) : List Row := opcodeTable.filter fun r => fF000 r.expected == c

/-- Only the rows of its own class decide whether a word is illegal. -/
theorem decode_eq_unknownOpcode_iff (w : Word) :
    decode w = .unknownOpcode w ↔ ∀ r ∈ classRows (fF000 w), ¬ r.hit w = true := by
  have hnone : firstRow w = none ↔ ∀ r ∈ classRows (fF000 w), ¬ r.hit w = true := by
    rw [firstRow_eq_class]
    exact List.find?_eq_none
  rw [← hnone, decode]
  split
  next hw =>
    subst hw
    decide
  next => cases firstRow w with
    | none => simp
    | some r => simp

/-- No row expects a bit that its mask does not look at (R102 (c)). -/
theorem expected_and_mask : ∀ r ∈ opcodeTable, r.expected &&& r.mask = r.expected := by decide

section

variable (hr : r ∈ classRows (fF000 w))

include hr

/-- A row of the word's class matches it iff the three lower nibbles agree under the mask. -/
theorem Row.hit_iff_of_class : r.hit w = true ↔
    f0F00 w &&& f0F00 r.mask = f0F00 r.expected &&& f0F00 r.mask ∧
    f00F0 w &&& f00F0 r.mask = f00F0 r.expected &&& f00F0 r.mask ∧
    f000F w &&& f000F r.mask = f000F r.expected &&& f000F r.mask := by
  obtain ⟨hmem, hclass⟩ := List.mem_filter.mp hr
  have hexp : r.expected &&& r.mask = r.expected := expected_and_mask r hmem
  have htop : fF000 w &&& fF000 r.mask = fF000 r.expected := by
    rw [← beq_iff_eq.mp hclass, ← fF000_and, hexp]
  simp only [Row.hit_iff, htop, true_and, ← f0F00_and r.expected, ← f00F0_and r.expected, ← f000F_and r.expected, hexp]

theorem Row.hit_of_mask_F000 (hm : r.mask = 0xF000) : r.hit w = true := by
  simp [Row.hit_iff_of_class hr, hm, Laws.Encoded.mask_F000]

theorem Row.hit_iff_of_mask_F00F (hm : r.mask = 0xF00F) : r.hit w = true ↔ f000F w = f000F r.expected := by
  simp [Row.hit_iff_of_class hr, hm, Laws.Encoded.mask_F00F, Laws.Encoded.and_fifteen]

theorem Row.hit_iff_of_mask_F0FF (hm : r.mask = 0xF0FF) : r.hit w = true ↔ f00FF w = f00FF r.expected := by
  have hbyte : f00FF w = f00FF r.expected ↔ f00F0 w = f00F0 r.expected ∧ f000F w = f000F r.expected := by
    rw [f00FF_eq, f00FF_eq]
    refine ⟨fun h => ⟨?_, ?_⟩, fun ⟨h1, h0⟩ => by rw [h1, h0]⟩
    · simpa only [BitVec.extractLsb'_append_eq_left] using congrArg (·.extractLsb' 4 4) h
    · simpa only [BitVec.extractLsb'_append_eq_right] using congrArg (·.extractLsb' 0 4) h
  simp [Row.hit_iff_of_class hr, hm, hbyte, Laws.Encoded.mask_F0FF, Laws.Encoded.and_fifteen]

end

/-- Where a class's rows are told apart by one field of the word, the illegal words are those whose field no row expects. -/
theorem illegal_iff_field {n : Nat} {f : Word → BitVec n}
    (hf : ∀ r ∈ classRows (fF000 w), (r.hit w = true ↔ f w = f r.expected)) :
    decode w = .unknownOpcode w ↔ f w ∉ (classRows (fF000 w)).map (f ·.expected) := by
  rw [decode_eq_unknownOpcode_iff, List.mem_map, not_exists]
  refine forall_congr' fun r => ?_
  rw [not_and]
  exact forall_congr' fun hr => not_congr ((hf r hr).trans eq_comm)

section Class

variable {c : BitVec 4} (hc : fF000 w = c)

include hc

/-- A class with a row that looks at no other nibble has no illegal word. -/
theorem not_illegal_of_mask_F000 (hrow : ∃ r ∈ classRows c, r.mask = 0xF000) : decode w ≠ .unknownOpcode w := by
  subst hc
  obtain ⟨r, hr, hm⟩ := hrow
  exact fun h => (decode_eq_unknownOpcode_iff w).mp h r hr (Row.hit_of_mask_F000 hr hm)

theorem illegal_iff_nibble (hrows : ∀ r ∈ classRows c, r.mask = 0xF00F) :
    decode w = .unknownOpcode w ↔ f000F w ∉ (classRows c).map (f000F ·.expected) := by
  subst hc
  exact illegal_iff_field fun r hr => Row.hit_iff_of_mask_F00F hr (hrows r hr)

theorem illegal_iff_byte (hrows : ∀ r ∈ classRows c, r.mask = 0xF0FF) :
    decode w = .unknownOpcode w ↔ f00FF w ∉ (classRows c).map (f00FF ·.expected) := by
  subst hc
  exact illegal_iff_field fun r hr => Row.hit_iff_of_mask_F0FF hr (hrows r hr)

end Class

/-- Every class but five has a row that looks at no other nibble. -/
theorem class_cases : ∀ c : BitVec 4, c = 0x5 ∨ c = 0x8 ∨ c = 0x9 ∨ c = 0xE ∨ c = 0xF ∨
    ((∃ r ∈ classRows c, r.mask = 0xF000) ∧ c ≠ 0x5 ∧ c ≠ 0x8 ∧ c ≠ 0x9 ∧ c ≠ 0xE ∧ c ≠ 0xF) := by
  decide

/-- The low nibbles that class 8 has no row for, listed the other way round. -/
theorem not_mem_nibbles_of_class_8 : ∀ n : BitVec 4, n ∉ (classRows 0x8).map (f000F ·.expected) ↔
    n ∈ [0x8#4, 0x9#4, 0xA#4, 0xB#4, 0xC#4, 0xD#4, 0xF#4] := by
  decide

/-- Settles O6: the rows of classes 5, 8 and 9 are told apart by the low nibble, those of E and F by the low byte, and every other class
has a row for all its words. -/
theorem illegalWords : Obligations.IllegalWords := by
  intro w
  have nibbles_5 : (classRows 0x5).map (f000F ·.expected) = [0x0] := by decide
  have nibbles_9 : (classRows 0x9).map (f000F ·.expected) = [0x0] := by decide
  have bytes_E : (classRows 0xE).map (f00FF ·.expected) = [0x9E, 0xA1] := by decide
  have bytes_F : (classRows 0xF).map (f00FF ·.expected) = [0x07, 0x0A, 0x15, 0x18, 0x1E, 0x29, 0x33, 0x55, 0x65] := by decide
  rcases class_cases (fF000 w) with hc | hc | hc | hc | hc | ⟨hrow, h5, h8, h9, hE, hF⟩
  · rw [illegal_iff_nibble hc (by decide), nibbles_5]
    simp [hc]
  · rw [illegal_iff_nibble hc (by decide), not_mem_nibbles_of_class_8]
    simp [hc]
  · rw [illegal_iff_nibble hc (by decide), nibbles_9]
    simp [hc]
  · rw [illegal_iff_byte hc (by decide), bytes_E]
    simp [hc]
  · rw [illegal_iff_byte hc (by decide), bytes_F]
    simp [hc]
  · simp only [not_illegal_of_mask_F000 rfl hrow, h5, h8, h9, hE, hF, false_and, or_false]

end Sys2Proof

/-! The fields of a word (`40_bitfield_extractor.md` R90 to R95). -/

namespace Sys2Proof

/-- A field of a word is the word shifted down to the field's lowest bit, with the bits above the field masked off. -/
theorem field_eq_shift_and_mask (w : Word) (s n : Nat) :
    (w.extractLsb' s n).setWidth 16 = (w >>> s) &&& (BitVec.allOnes n).setWidth 16 := by
  ext b
  simp [Bool.and_comm]

theorem low_field_eq_mask (w : Word) (n : Nat) :
    (w.extractLsb' 0 n).setWidth 16 = w &&& (BitVec.allOnes n).setWidth 16 := by
  simpa only [BitVec.ushiftRight_zero] using field_eq_shift_and_mask w 0 n

/-- Settles O3: each extractor is a field given by its lowest bit and its width, and the ones of that width are the mask. -/
theorem extractorFields : Obligations.ExtractorFields := fun op =>
  ⟨field_eq_shift_and_mask op 12 4, low_field_eq_mask op 12, field_eq_shift_and_mask op 8 4, field_eq_shift_and_mask op 4 4,
    low_field_eq_mask op 4, low_field_eq_mask op 8⟩

end Sys2Proof

/-! The Opcode Table (`41_opcode_table_decoder.md` R102), the outcomes of the decoder (R107, R109) and the ports of the dispatch mux
(R112). -/

namespace Sys2Proof

variable {r : Row} {w : Word} {k : Nat}

/-! ## The table's invariants (R102) -/

/-- Settles O7: no row expects a bit outside its mask, the mask of a row is that of its format, and no two rows name one variant. -/
theorem opcodeTableShape : Obligations.OpcodeTableShape := by
  refine ⟨rfl, by decide, fun r hr => ⟨?_, ?_⟩⟩
  · calc r.expected &&& ~~~r.mask = r.expected &&& r.mask &&& ~~~r.mask := by rw [expected_and_mask r hr]
      _ = 0 := by rw [BitVec.and_assoc, BitVec.and_not_self]; exact BitVec.and_zero
  · rw [mask_eq_format_mask r hr]
    cases r.format <;> decide

/-! ## The outcomes of the decoder (R105, R109) -/

/-- A row matches a word iff the bits under its mask are the expected ones (R103). -/
theorem Row.hit_iff_masked : r.hit w = true ↔ w &&& r.mask = r.expected := beq_iff_eq

theorem decode_of_no_firstRow (hw : w ≠ 0) (h : firstRow w = none) : decode w = .unknownOpcode w := by
  simp only [decode, if_neg hw, h]

/-- The three outcomes, told apart by the zero word and by the row the word selects. -/
theorem decode_cases (w : Word) :
    (w = 0 ∧ decode w = .noOp) ∨
    (w ≠ 0 ∧ ∃ r, firstRow w = some r ∧ decode w = .decoded (r.build w)) ∨
    (w ≠ 0 ∧ firstRow w = none ∧ decode w = .unknownOpcode w) := by
  by_cases hw : w = 0
  · exact .inl ⟨hw, if_pos hw⟩
  · cases h : firstRow w with
    | some r => exact .inr (.inl ⟨hw, r, rfl, decode_of_firstRow hw h⟩)
    | none => exact .inr (.inr ⟨hw, rfl, decode_of_no_firstRow hw h⟩)

theorem decode_eq_noOp_iff : decode w = .noOp ↔ w = 0 := by
  rcases decode_cases w with ⟨hw, h⟩ | ⟨hw, r, -, h⟩ | ⟨hw, -, h⟩
  · exact iff_of_true h hw
  · exact iff_of_false (by simp [h]) hw
  · exact iff_of_false (by simp [h]) hw

theorem exists_decode_eq_decoded_iff : (∃ i, decode w = .decoded i) ↔ w ≠ 0 ∧ ∃ r, firstRow w = some r := by
  rcases decode_cases w with ⟨hw, h⟩ | ⟨hw, r, hr, h⟩ | ⟨hw, hr, h⟩
  · exact iff_of_false (by simp [h]) fun ⟨hne, _⟩ => hne hw
  · exact iff_of_true ⟨_, h⟩ ⟨hw, r, hr⟩
  · exact iff_of_false (by simp [h]) (by simp [hr])

theorem decode_eq_unknownOpcode_iff_firstRow (u : Word) : decode w = .unknownOpcode u ↔ u = w ∧ w ≠ 0 ∧ firstRow w = none := by
  rcases decode_cases w with ⟨hw, h⟩ | ⟨hw, r, hr, h⟩ | ⟨hw, hr, h⟩
  · exact iff_of_false (by simp [h]) fun ⟨_, hne, _⟩ => hne hw
  · exact iff_of_false (by simp [h]) (by simp [hr])
  · rw [h, DecodeOutcome.unknownOpcode.injEq]
    exact ⟨fun hu => ⟨hu.symm, hw, hr⟩, fun ⟨hu, _⟩ => hu.symm⟩

/-! ## The selected row and its index (R104) -/

theorem exists_firstRow_iff : (∃ r, firstRow w = some r) ↔ ∃ r ∈ opcodeTable, w &&& r.mask = r.expected := by
  simp only [← Option.isSome_iff_exists, firstRow, List.find?_isSome, Row.hit_iff_masked]

theorem firstRow_eq_none_iff : firstRow w = none ↔ ∀ r ∈ opcodeTable, w &&& r.mask ≠ r.expected := by
  simp only [firstRow, List.find?_eq_none, Row.hit_iff_masked, ne_eq]

/-- The row a word selects is the one at the index it selects. -/
theorem firstRow_eq_bind_firstIndex (w : Word) : firstRow w = (firstIndex w).bind (opcodeTable[·]?) :=
  List.find?_eq_bind_findIdx?_getElem?

theorem firstRow_of_firstIndex (h : firstIndex w = some k) : firstRow w = opcodeTable[k]? := by
  rw [firstRow_eq_bind_firstIndex, h, Option.bind_some]

theorem firstIndex_eq_none_iff : firstIndex w = none ↔ firstRow w = none := by
  rw [firstIndex, firstRow, List.findIdx?_eq_none_iff, List.find?_eq_none]
  simp only [Bool.not_eq_true]

/-- A row that matches, with no earlier row that does, has the index the word selects. -/
theorem firstIndex_eq_some (hk : opcodeTable[k]? = some r) (hit : w &&& r.mask = r.expected)
    (hfirst : ∀ (j : Nat) (r' : Row), j < k → opcodeTable[j]? = some r' → w &&& r'.mask ≠ r'.expected) :
    firstIndex w = some k := by
  obtain ⟨hlt, rfl⟩ := List.getElem?_eq_some_iff.mp hk
  refine List.findIdx?_eq_some_iff_getElem.mpr ⟨hlt, Row.hit_iff_masked.mpr hit, fun j hj hhit => ?_⟩
  exact hfirst j _ hj (List.getElem?_eq_getElem (hj.trans hlt)) (Row.hit_iff_masked.mp hhit)

/-- Settles O4: `decode_cases` tells the outcomes apart by the selected row, which exists iff some row matches and is the first that
does. -/
theorem decodeOutcomes : Obligations.DecodeOutcomes := by
  intro w
  refine ⟨decode_eq_noOp_iff, ?_, fun u => ?_, fun k r hw hk hit hfirst => ?_⟩
  · rw [exists_decode_eq_decoded_iff, exists_firstRow_iff]
  · rw [decode_eq_unknownOpcode_iff_firstRow, firstRow_eq_none_iff]
  · have hidx : firstIndex w = some k := firstIndex_eq_some hk hit hfirst
    exact ⟨hidx, decode_of_firstRow hw ((firstRow_of_firstIndex hidx).trans hk)⟩

/-! ## The ports (R112) -/

theorem ports_zero : ports 0 = Ports.zero := rfl

theorem ports_of_no_firstIndex (hw : w ≠ 0) (h : firstIndex w = none) :
    ports w = { Ports.zero with outcome := 2, errWord := w } := by
  simp only [ports, if_neg hw, h]

/-- The ports of the row with index `k` and the operands `o`. -/
def Ports.selected (k : Nat) (o : Operands) : Ports where
  outcome := 1
  sel := BitVec.ofNat 6 k
  dispatch := 1 <<< k
  opNnn := o.nnn
  opX := o.x
  opY := o.y
  opKk := o.kk
  opN := o.n
  errWord := 0

theorem selectedOperands_of_firstRow (h : firstRow w = some r) : selectedOperands w = r.format.operands w := by
  simp only [selectedOperands, h]

theorem ports_of_firstIndex (hw : w ≠ 0) (h : firstIndex w = some k) (hk : opcodeTable[k]? = some r) :
    ports w = Ports.selected k (r.format.operands w) := by
  simp only [ports, if_neg hw, h, selectedOperands_of_firstRow ((firstRow_of_firstIndex h).trans hk), Ports.selected]

theorem Ports.selected_sel {o : Operands} (hk : k < 35) : (Ports.selected k o).sel.toNat = k :=
  Nat.mod_eq_of_lt (by omega)

/-- The dispatch bits are one-hot. -/
theorem Ports.selected_dispatch {o : Operands} {j : Nat} (hk : k < 35) :
    (Ports.selected k o).dispatch.getLsbD j = true ↔ j = k := by
  rw [show (Ports.selected k o).dispatch = BitVec.twoPow 35 k from (BitVec.twoPow_eq 35 k).symm, BitVec.getLsbD_twoPow]
  simp [hk, eq_comm]

/-- A format reads exactly the fields it carries (R72). -/
theorem Format.operands_fields (f : Format) (w : Word) :
    (f.operands w).nnn = (if f = .a then f0FFF w else 0) ∧
    (f.operands w).x = (if f ∈ [.xk, .xy, .xyn, .x] then f0F00 w else 0) ∧
    (f.operands w).y = (if f ∈ [.xy, .xyn] then f00F0 w else 0) ∧
    (f.operands w).kk = (if f = .xk then f00FF w else 0) ∧
    (f.operands w).n = (if f = .xyn then f000F w else 0) := by
  cases f <;> exact ⟨rfl, rfl, rfl, rfl, rfl⟩

/-- Settles O8: the decoder's outcome says which branch of `ports` is taken, and the branch of a selected row puts the fields of the
row's format on the operand ports. -/
theorem dispatchPorts : Obligations.DispatchPorts := by
  intro w
  refine ⟨fun h => ?_, fun u h => ?_, fun k r hw h hk => ?_⟩
  · rw [decode_eq_noOp_iff.mp h, ports_zero]
  · obtain ⟨-, hw, hrow⟩ := (decode_eq_unknownOpcode_iff_firstRow u).mp h
    exact ports_of_no_firstIndex hw (firstIndex_eq_none_iff.mpr hrow)
  · obtain ⟨hlt, -⟩ := List.getElem?_eq_some_iff.mp hk
    obtain ⟨hnnn, hx, hy, hkk, hn⟩ := r.format.operands_fields w
    rw [ports_of_firstIndex hw h hk]
    exact ⟨rfl, Ports.selected_sel hlt, fun _ _ => Ports.selected_dispatch hlt, hnnn, hx, hy, hkk, hn, rfl⟩

end Sys2Proof

/-! The Fetch Loop (`42_fetch_loop.md`): what one fetch does (R121 to R123), when the sequencer takes a step (R124, R128, R130), and the
step it then takes (R126). -/

namespace Sys2Proof.Machine

variable {s : State} {o : Out}

/-! ## One fetch (R121 to R123) -/

/-- The high byte stands at the lower address (R52). -/
theorem wordOfBytes_toNat (hi lo : Byte) : (wordOfBytes hi lo).toNat = 256 * hi.toNat + lo.toNat := by
  rw [wordOfBytes, BitVec.toNat_append, ← Nat.shiftLeft_add_eq_or_of_lt lo.isLt, Nat.shiftLeft_eq, Nat.mul_comm]

/-- Within the bounds of a fetch `PC` does not wrap (R28, R123). -/
theorem State.advance_pc_toNat (h : s.pc.toNat ≤ 0xFFE) (d : DecodeOutcome) : (s.advance d).pc.toNat = s.pc.toNat + 2 := by
  rw [State.advance_pc]
  bv_omega

theorem State.raiseFetch_eq (s : State) : s.raiseFetch = { s with halt := true, status := .fetchOutOfBounds s.pc } := by
  rw [State.raiseFetch, State.raise, Bool.or_false]

/-- Settles O17: the two branches of `fetchStep_cases`, `advance` with the word of the two bytes and `raiseFetch`. -/
theorem fetchReadsAndAdvancesOrHalts : Obligations.FetchReadsAndAdvancesOrHalts := by
  intro s
  rcases s.fetchStep_cases with ⟨hin, hf⟩ | ⟨hout, hf⟩ <;> rw [hf]
  · exact ⟨fun _ => ⟨s.fetchWord, wordOfBytes_toNat _ _, rfl, State.advance_pc_toNat hin _, rfl⟩, fun hout => absurd hin hout.not_ge⟩
  · exact ⟨fun hin => absurd hin hout.not_ge, fun _ => ⟨rfl, s.raiseFetch_eq⟩⟩

/-- Settles O16: memory is empty, `PC` is `0x0200`, every stack entry is 0, and neither `HALT` nor the end of the run is set (R42). -/
theorem resetMeetsTheInvariants : Obligations.ResetMeetsTheInvariants := by
  have hstack : ∀ (k : Nat) (h : k < 16), (State.reset.stack[k]'h).toNat ≤ 0x1000 := fun k h => by
    rw [show State.reset.stack[k] = 0 from Vector.getElem_replicate h]
    decide
  exact ⟨Memory.wf_reset, ⟨by decide, hstack⟩, State.haltExplained_of_not_halt rfl, State.stopExplained_of_not_stopped rfl,
    by decide, by decide⟩

/-! ## The gate (R124, R128, R130) -/

theorem State.gate_of_halt (h : s.halt = true) : s.gate = some (.fault .halted) := by
  simp only [State.gate, h, if_true]

theorem State.gate_of_stopped (hh : s.halt = false) (hs : s.stopped = true) : s.gate = some (.fault .runEnded) := by
  simp only [State.gate, hh, hs, if_true, Bool.false_eq_true, if_false]

theorem State.gate_of_refusesLowFetch (hh : s.halt = false) (hs : s.stopped = false) (hr : s.refusesLowFetch = true) :
    s.gate = some (.refused (.lowFetch s.pc)) := by
  simp only [State.gate, hh, hs, hr, if_true, Bool.false_eq_true, if_false]

/-- A fetch below `0x200` is refused exactly without `ALLOW_LOW_FETCH` (R124). -/
theorem State.refusesLowFetch_of_low (h : s.pc.toNat < 0x200) : s.refusesLowFetch = !s.params.allowLowFetch := by
  rw [State.refusesLowFetch, decide_eq_true h, Bool.true_and]

/-! ## One step (R126) -/

theorem step_of_gate_eq_some (h : s.gate = some o) : step s = o := by
  rw [step, sequencerStep, h]

theorem step_of_running (h : s.Running) : step s = s.cycle := by
  rw [step, sequencerStep, s.gate_eq_none.mpr h]

/-- Within bounds a cycle dispatches the word at `PC`: the driver's ticks touch neither memory nor `PC`. -/
theorem State.cycle_of_le (h : s.pc.toNat ≤ 0xFFE) :
    s.cycle = dispatch (.fetched (decode s.fetchWord)) (s.elapse.advance (decode s.fetchWord)) := by
  rcases s.elapse.fetchStep_cases with ⟨-, hf⟩ | ⟨hout, -⟩
  · rw [State.cycle, hf]
    rfl
  · exact absurd h hout.not_ge

/-- Settles O18: a running machine takes its cycle, which dispatches the decoded instruction to `exec`. -/
theorem stepRunsDecodedInstruction : Obligations.StepRunsDecodedInstruction := by
  intro s i hrun hin hd
  rw [step_of_running hrun, State.cycle_of_le hin, hd]
  rfl

/-- Settles O22: the gate's first two answers. -/
theorem haltedOrEndedTakesNoStep : Obligations.HaltedOrEndedTakesNoStep := fun _ =>
  ⟨fun hh => step_of_gate_eq_some (State.gate_of_halt hh), fun hh hs => step_of_gate_eq_some (State.gate_of_stopped hh hs)⟩

/-- Settles O23: below `0x200` the parameter alone decides between the gate's refusal and the cycle. -/
theorem fetchBelowProgramArea : Obligations.FetchBelowProgramArea := by
  refine ⟨rfl, fun s hh hs hlow => ⟨fun hp => ?_, fun hp => ?_⟩⟩
  · have hr : s.refusesLowFetch = true := by rw [State.refusesLowFetch_of_low hlow, hp, Bool.not_false]
    exact step_of_gate_eq_some (State.gate_of_refusesLowFetch hh hs hr)
  · have hr : s.refusesLowFetch = false := by rw [State.refusesLowFetch_of_low hlow, hp, Bool.not_true]
    exact step_of_running ⟨hh, hs, hr⟩

end Sys2Proof.Machine

/-! The decode rules of classes 0, 1, 2 and B (`43_flow.md` R140 to R150). -/

namespace Sys2Proof

variable {r : Row} {w : Word}

/-- A row that matches a word is decoded from it, but for the row of `SYS` at the words of `NoOp`, `ClearScreen` and `Return`. -/
theorem decode_of_hit (hr : r ∈ opcodeTable) (h : r.hit w = true)
    (hsys : r.op = .sys → w ≠ 0 ∧ w ≠ 0x00E0 ∧ w ≠ 0x00EE) : decode w = .decoded (r.build w) := by
  have hw : w ≠ 0 := fun e => (hsys (op_eq_sys_of_hit_zero r hr (e ▸ h))).1 e
  exact decode_of_firstRow hw (firstRow_of_hit hr h fun e => (hsys e).2)

/-- A row that looks at the class alone is decoded from every word of its class, with the same exception. -/
theorem decode_of_mask_F000 {c : BitVec 4} (hc : fF000 w = c) (hr : r ∈ classRows c) (hm : r.mask = 0xF000)
    (hsys : r.op = .sys → w ≠ 0 ∧ w ≠ 0x00E0 ∧ w ≠ 0x00EE) : decode w = .decoded (r.build w) := by
  subst hc
  exact decode_of_hit (List.mem_of_mem_filter hr) (Row.hit_of_mask_F000 hr hm) hsys

/-- A well-formed instruction comes from its encoding alone (R87). -/
theorem decode_eq_decoded_iff {i : Instr} (hi : WellFormed i = true) : decode w = .decoded i ↔ w = encode i :=
  ⟨fun h => (encodeInvertsDecode w i h).1.symm, fun h => h ▸ decode_encode hi⟩

/-- The addresses of a `SYS` that some word decodes to (R81). -/
theorem wellFormed_sys_iff {a : Address} : WellFormed (.sys a) = true ↔ a ≠ 0x000 ∧ a ≠ 0x0E0 ∧ a ≠ 0x0EE := by
  simp only [WellFormed, Bool.and_eq_true, bne_iff_ne, and_assoc]

/-- Settles O9: `ClearScreen` and `Return` come from their encodings alone, a decoded `SYS` is well formed, and the rows of classes 0,
1, 2 and B look at the class alone. -/
theorem decodeRulesOfFlow : Obligations.DecodeRulesOfFlow := by
  refine ⟨rfl, rfl, rfl, rfl, rfl, rfl, fun w => ⟨decode_eq_decoded_iff rfl, decode_eq_decoded_iff rfl, ?_, ?_, ?_, ?_, ?_⟩⟩
  · exact fun h0 hE0 hEE hc =>
      decode_of_mask_F000 (r := ⟨0x0000, 0xF000, .a, .sys⟩) hc (by decide) rfl fun _ => ⟨h0, hE0, hEE⟩
  · exact fun a h => wellFormed_sys_iff.mp (encodeInvertsDecode w (.sys a) h).2
  · exact fun hc => decode_of_mask_F000 (r := ⟨0x1000, 0xF000, .a, .jump⟩) hc (by decide) rfl nofun
  · exact fun hc => decode_of_mask_F000 (r := ⟨0x2000, 0xF000, .a, .call⟩) hc (by decide) rfl nofun
  · exact fun hc => decode_of_mask_F000 (r := ⟨0xB000, 0xF000, .a, .jumpOffset⟩) hc (by decide) rfl nofun

end Sys2Proof

/-! The execution of classes 0, 1, 2 and B (`43_flow.md` R141 to R151). -/

namespace Sys2Proof.Machine

variable (s : State)

/-! ## Reports and jumps -/

/-- An error raised is reported and changes nothing else but, by policy, the end of the run (R240, R249). -/
theorem State.onlyReports_raiseExec (e : ExecError) : OnlyReports s (s.raiseExec e) (.execError e) :=
  ⟨rfl, fun _ => rfl⟩

theorem State.onlyPc_setPc (a : Word) : OnlyPc s (s.setPc a) :=
  ⟨rfl, fun _ => rfl⟩

theorem target_toNat (nnn : Address) : (target nnn).toNat = nnn.toNat :=
  BitVec.toNat_setWidth_of_le (by decide)

/-- The sum of `JumpOffset` is at most `0x10FE`, so it does not wrap (R151). -/
theorem target_add_toNat (nnn : Address) (u : Byte) : (target nnn + u.setWidth 16).toNat = nnn.toNat + u.toNat := by
  have hu : (u.setWidth 16).toNat = u.toNat := BitVec.toNat_setWidth_of_le (by decide)
  rw [BitVec.toNat_add, target_toNat, hu]
  omega

/-! ## One instruction -/

/-- Settles O36: the only update is `callRenderer`. -/
theorem clearScreenOnlyCallsTheRenderer : Obligations.ClearScreenOnlyCallsTheRenderer :=
  fun s => ⟨s.callRenderer .clear, rfl, rfl, rfl, fun _ => rfl⟩

/-- Settles O38: the two policies of `exec_sys_cases`; under `fault` the error is raised as any other. -/
theorem sysFollowsItsPolicy : Obligations.SysFollowsItsPolicy := by
  refine ⟨rfl, fun nnn s => ?_⟩
  rcases exec_sys_cases s nnn with ⟨hp, he⟩ | ⟨hp, he⟩ <;> rw [hp]
  · exact ⟨fun _ => he, nofun⟩
  · exact ⟨nofun, fun _ => ⟨_, he, s.onlyReports_raiseExec _⟩⟩

/-- Settles O39: both jumps are `setPc`, and neither the address nor the sum wraps. -/
theorem jumpsSetPc : Obligations.JumpsSetPc := fun nnn s =>
  ⟨⟨s.setPc (target nnn), rfl, target_toNat nnn, s.onlyPc_setPc _⟩,
    ⟨s.setPc (target nnn + (s.getV 0).setWidth 16), rfl, target_add_toNat nnn _, s.onlyPc_setPc _⟩⟩

/-- Settles O37: the two branches of `exec_ret_cases`, told apart by `SP`. -/
theorem returnPopsPc : Obligations.ReturnPopsPc := by
  intro s
  rcases exec_ret_cases s with ⟨h0, he⟩ | ⟨_, _, hpos, he⟩
  · exact ⟨fun hpos => absurd h0 hpos.ne', fun _ => ⟨_, he, s.onlyReports_raiseExec _⟩⟩
  · exact ⟨fun _ => ⟨_, he, rfl, rfl, rfl, fun _ => rfl⟩, fun h0 => absurd h0 hpos.ne'⟩

/-- Settles O40: the two branches of `exec_call_cases`, told apart by `SP`; the push writes the one entry `SP` names. -/
theorem callPushesPc : Obligations.CallPushesPc := by
  intro nnn s
  rcases exec_call_cases s nnn with ⟨h16, he⟩ | ⟨hlt, _, he⟩
  · exact ⟨fun hlt => absurd h16 hlt.ne, fun _ => ⟨_, he, s.onlyReports_raiseExec _⟩⟩
  · refine ⟨fun _ => ⟨_, he, Vector.getElem_set_self hlt, rfl, target_toNat nnn, fun k hk hne => ?_, rfl, fun _ => rfl⟩,
      fun h16 => absurd h16 hlt.ne⟩
    exact Vector.getElem_set_ne hlt hk hne.symm

/-- Settles O41: the entry `Return` takes (R143) is the one `Call` has written (R149). -/
theorem returnUndoesCall : Obligations.ReturnUndoesCall := by
  intro nnn s hlt
  obtain ⟨t, hcall, hpushed, htsp, -, -, ht, -⟩ := (callPushesPc nnn s).1 hlt
  obtain ⟨u, hret, hupc, husp, hu, -⟩ := (returnPopsPc t).1 (by omega)
  have htop : t.sp.val - 1 = s.sp.val := by omega
  have hpc : u.pc = s.pc := by simpa only [htop, hpushed] using hupc
  have hsp : u.sp = s.sp := Fin.ext (husp.trans htop)
  refine ⟨t, u, hcall, hret, hpc, hsp, ?_⟩
  calc u = { t with pc := s.pc, sp := s.sp } := by rw [← hpc, ← hsp]; exact hu
    _ = { s with stack := t.stack } := by rw [ht]
    _ = { s with stack := u.stack } := by rw [hu]

end Sys2Proof.Machine

/-! The decode rules of the skips, classes 3, 4, 5, 9 and E (`44_skips.md` R160 to R170). -/

namespace Sys2Proof

variable {r : Row} {w : Word} {c : BitVec 4}

/-- The row of `SYS` looks at the class alone (R76). -/
theorem mask_eq_of_op_eq_sys : ∀ r ∈ opcodeTable, r.op = .sys → r.mask = 0xF000 := by decide

/-- A row that looks at more than the class is decoded from every word it matches. -/
theorem decode_of_hit_of_mask_ne (hr : r ∈ opcodeTable) (hm : r.mask ≠ 0xF000) (h : r.hit w = true) :
    decode w = .decoded (r.build w) :=
  decode_of_hit hr h fun hsys => absurd (mask_eq_of_op_eq_sys r hr hsys) hm

section Class

variable (hc : fF000 w = c) (hr : r ∈ classRows c)

include hc hr

/-- A row that looks at the class and the low nibble is decoded from every word of its class with its low nibble. -/
theorem decode_of_mask_F00F (hm : r.mask = 0xF00F) (hn : f000F w = f000F r.expected) : decode w = .decoded (r.build w) := by
  subst hc
  exact decode_of_hit_of_mask_ne (List.mem_of_mem_filter hr) (by simp [hm]) ((Row.hit_iff_of_mask_F00F hr hm).mpr hn)

/-- A row that looks at the class and the low byte is decoded from every word of its class with its low byte. -/
theorem decode_of_mask_F0FF (hm : r.mask = 0xF0FF) (hb : f00FF w = f00FF r.expected) : decode w = .decoded (r.build w) := by
  subst hc
  exact decode_of_hit_of_mask_ne (List.mem_of_mem_filter hr) (by simp [hm]) ((Row.hit_iff_of_mask_F0FF hr hm).mpr hb)

end Class

/-- Settles O10: the rows of classes 3 and 4 look at the class alone, those of 5 and 9 at the low nibble too, those of E at the low
byte; the illegal words of 5, 9 and E are those of `illegalWords`. -/
theorem decodeRulesOfSkips : Obligations.DecodeRulesOfSkips := by
  refine ⟨rfl, rfl, rfl, rfl, rfl, rfl, fun w => ⟨?_, ?_, ?_, ?_, ?_, ?_, ?_, ?_, ?_⟩⟩
  · exact fun hc => decode_of_mask_F000 (r := ⟨0x3000, 0xF000, .xk, .skipEqualByte⟩) hc (by decide) rfl nofun
  · exact fun hc => decode_of_mask_F000 (r := ⟨0x4000, 0xF000, .xk, .skipNotEqualByte⟩) hc (by decide) rfl nofun
  · exact fun hc hn => decode_of_mask_F00F (r := ⟨0x5000, 0xF00F, .xy, .skipEqualRegister⟩) hc (by decide) rfl hn
  · exact fun hc hn => (illegalWords w).mpr (.inl ⟨hc, hn⟩)
  · exact fun hc hn => decode_of_mask_F00F (r := ⟨0x9000, 0xF00F, .xy, .skipNotEqualRegister⟩) hc (by decide) rfl hn
  · exact fun hc hn => (illegalWords w).mpr (.inr (.inr (.inl ⟨hc, hn⟩)))
  · exact fun hc hb => decode_of_mask_F0FF (r := ⟨0xE09E, 0xF0FF, .x, .skipKeyPress⟩) hc (by decide) rfl hb
  · exact fun hc hb => decode_of_mask_F0FF (r := ⟨0xE0A1, 0xF0FF, .x, .skipKeyNotPress⟩) hc (by decide) rfl hb
  · exact fun hc h9E hA1 => (illegalWords w).mpr (.inr (.inr (.inr (.inl ⟨hc, by simpa using And.intro h9E hA1⟩))))

end Sys2Proof

/-! The execution of the skips (`44_skips.md` R161 to R171). -/

namespace Sys2Proof.Machine

variable (s : State)

/-! ## The skips on bytes and registers -/

/-- A skip moves `PC` by two iff its comparison holds, and changes nothing else. -/
theorem State.skipIf_pc_onlyPc {c : Bool} {p : Prop} [Decidable p] (h : c = true ↔ p) :
    (s.skipIf c).pc = (if p then s.pc + 2 else s.pc) ∧ OnlyPc s (s.skipIf c) :=
  ⟨if_congr h rfl rfl, s.onlyPc_setPc _⟩

/-- Settles O42: each of the four is `skipIf` of its own comparison. -/
theorem registerSkips : Obligations.RegisterSkips := fun x y kk s =>
  ⟨⟨s.skipIf (s.getV x == kk), rfl, s.skipIf_pc_onlyPc beq_iff_eq⟩,
    ⟨s.skipIf (s.getV x != kk), rfl, s.skipIf_pc_onlyPc bne_iff_ne⟩,
    ⟨s.skipIf (s.getV x == s.getV y), rfl, s.skipIf_pc_onlyPc beq_iff_eq⟩,
    ⟨s.skipIf (s.getV x != s.getV y), rfl, s.skipIf_pc_onlyPc bne_iff_ne⟩⟩

/-! ## The keyboard's answer (R169, U7) -/

variable {s} {k : Byte}

/-- The keyboard is asked for the key numbered by the low nibble, up to 15 and, under `mask_low_nibble`, above. -/
theorem State.keyAnswer_of_keyDown (h : k.toNat ≤ 0xF ∨ s.params.keyIndexPolicy = .maskLowNibble) :
    s.keyAnswer k = some (Config.keyDown s.draws (k.setWidth 4)) := by
  unfold State.keyAnswer
  split
  next => rfl
  next hk => rw [h.resolve_left hk]

theorem State.keyAnswer_of_notPressed (hk : 0xF < k.toNat) (hp : s.params.keyIndexPolicy = .notPressed) :
    s.keyAnswer k = some false := by
  rw [State.keyAnswer, if_neg hk.not_ge, hp]

theorem State.keyAnswer_of_anyAnswer (hk : 0xF < k.toNat) (hp : s.params.keyIndexPolicy = .anyAnswer) :
    s.keyAnswer k = some (Config.keyDownBeyond s.draws k) := by
  rw [State.keyAnswer, if_neg hk.not_ge, hp]

/-! ## The key skips -/

/-- Without an answer both key skips are refused by name. -/
theorem exec_key_skips_refused {x : Register} (h : s.keyAnswer (s.getV x) = none) :
    exec (.skipKeyPress x) s = .refused (.keyIndex (s.getV x)) ∧
    exec (.skipKeyNotPress x) s = .refused (.keyIndex (s.getV x)) := by
  simp only [exec, execSkipKeyPress, execSkipKeyNotPress, h, and_self]

/-- On one answer exactly one of the two key skips skips; each takes one free value and changes nothing else. -/
theorem exec_key_skips_of_answer {x : Register} {down : Bool} (h : s.keyAnswer (s.getV x) = some down) :
    exec (.skipKeyPress x) s = .next { s with pc := if down then s.pc + 2 else s.pc, draws := s.draws + 1 } ∧
    exec (.skipKeyNotPress x) s = .next { s with pc := if down then s.pc else s.pc + 2, draws := s.draws + 1 } := by
  rw [exec_skipKeyPress h, exec_skipKeyNotPress h]
  cases down <;> exact ⟨rfl, rfl⟩

/-- Settles O43: the answer, or its absence, that `KEY_INDEX_POLICY` gives. -/
theorem keySkips : Obligations.KeySkips := fun _ _ =>
  ⟨fun h => exec_key_skips_of_answer (State.keyAnswer_of_keyDown h),
    fun hk hp => exec_key_skips_of_answer (State.keyAnswer_of_notPressed hk hp),
    fun hk hp => exec_key_skips_refused ((State.keyAnswer_eq_none _ _).mpr ⟨hk, hp⟩)⟩

/-- Settles O44: the free answer is one Boolean, and both key skips follow it. -/
theorem keyNumberAboveFifteenRuns : Obligations.KeyNumberAboveFifteenRuns := by
  intro x s hk hp
  obtain ⟨hpress, hnot⟩ := exec_key_skips_of_answer (State.keyAnswer_of_anyAnswer hk hp)
  refine ⟨_, _, hpress, hnot, ?_, rfl, rfl⟩
  cases Config.keyDownBeyond s.draws (s.getV x) with
  | true => exact .inl ⟨rfl, rfl⟩
  | false => exact .inr ⟨rfl, rfl⟩

end Sys2Proof.Machine

/-! The decode rules of the register and arithmetic instructions, classes 6, 7, 8 and C (`45_alu.md` R180 to R202). -/

namespace Sys2Proof

variable {r : Row} {w : Word}

/-- The rows of class 8 look at the class and the low nibble (R76). -/
theorem mask_of_class_8 : ∀ r ∈ classRows 0x8, r.mask = 0xF00F := by decide

theorem decode_of_class_8 (hc : fF000 w = 0x8) (hr : r ∈ classRows 0x8) (hn : f000F w = f000F r.expected) :
    decode w = .decoded (r.build w) :=
  decode_of_mask_F00F hc hr (mask_of_class_8 r hr) hn

/-- Settles O11: the rows of classes 6, 7 and C look at the class alone, those of class 8 at the low nibble too, and the illegal words
of class 8 are those of `illegalWords`. -/
theorem decodeRulesOfAlu : Obligations.DecodeRulesOfAlu := by
  refine ⟨rfl, rfl, rfl, rfl, fun w => ⟨?_, ?_, ?_, fun hc => ⟨?_, ?_, ?_, ?_, ?_, ?_, ?_, ?_, ?_, ?_⟩⟩⟩
  · exact fun hc => decode_of_mask_F000 (r := ⟨0x6000, 0xF000, .xk, .loadByte⟩) hc (by decide) rfl nofun
  · exact fun hc => decode_of_mask_F000 (r := ⟨0x7000, 0xF000, .xk, .addByte⟩) hc (by decide) rfl nofun
  · exact fun hc => decode_of_mask_F000 (r := ⟨0xC000, 0xF000, .xk, .random⟩) hc (by decide) rfl nofun
  · exact decode_of_class_8 (r := ⟨0x8000, 0xF00F, .xy, .loadRegister⟩) hc (by decide)
  · exact decode_of_class_8 (r := ⟨0x8001, 0xF00F, .xy, .orRegister⟩) hc (by decide)
  · exact decode_of_class_8 (r := ⟨0x8002, 0xF00F, .xy, .andRegister⟩) hc (by decide)
  · exact decode_of_class_8 (r := ⟨0x8003, 0xF00F, .xy, .xorRegister⟩) hc (by decide)
  · exact decode_of_class_8 (r := ⟨0x8004, 0xF00F, .xy, .addRegister⟩) hc (by decide)
  · exact decode_of_class_8 (r := ⟨0x8005, 0xF00F, .xy, .subRegister⟩) hc (by decide)
  · exact decode_of_class_8 (r := ⟨0x8006, 0xF00F, .xy, .shiftRight⟩) hc (by decide)
  · exact decode_of_class_8 (r := ⟨0x8007, 0xF00F, .xy, .subNRegister⟩) hc (by decide)
  · exact decode_of_class_8 (r := ⟨0x800E, 0xF00F, .xy, .shiftLeft⟩) hc (by decide)
  · exact fun hn => (illegalWords w).mpr (.inr (.inl ⟨hc, hn⟩))

end Sys2Proof

/-! The execution of the register and arithmetic instructions, classes 6, 7, 8 and C (`45_alu.md` R181 to R203). -/

namespace Sys2Proof.Machine

variable (s : State) (x : Register)

/-! ## One register written (R23) -/

theorem State.onlyV_setV (u : Byte) : OnlyV s (s.setV x u) :=
  ⟨rfl, fun _ => rfl⟩

theorem State.sameVBut_setV (u : Byte) : SameVBut [x] s (s.setV x u) :=
  fun _ hr => State.getV_setV_ne s (List.ne_of_not_mem_cons hr) u

/-! ## A result written, then `VF` (R204, D30) -/

theorem State.getV_setV_setVF (hx : x ≠ 0xF) (u f : Byte) : ((s.setV x u).setVF f).getV x = u := by
  rw [State.getV_setVF, if_neg hx, State.getV_setV_same]

theorem State.getV_setVF_same (f : Byte) : (s.setVF f).getV 0xF = f :=
  State.getV_setV_same s 0xF f

theorem State.onlyV_setV_setVF (u f : Byte) : OnlyV s ((s.setV x u).setVF f) :=
  ⟨rfl, fun _ => rfl⟩

theorem State.sameVBut_setV_setVF (u f : Byte) : SameVBut [x, 0xF] s ((s.setV x u).setVF f) := by
  intro r hr
  obtain ⟨hrx, hrF⟩ := List.ne_and_not_mem_of_not_mem_cons hr
  rw [State.getV_setVF, if_neg (List.ne_of_not_mem_cons hrF), State.getV_setV_ne s hrx]

/-! ## The results and the flags as numbers (R204, D31) -/

theorem byte_sub_toNat (a b : Byte) : ((a - b).toNat : Int) = (a.toNat - b.toNat : Int) % 256 := by
  rw [BitVec.toNat_sub]
  omega

theorem byte_shiftRight_one_toNat (a : Byte) : (a >>> 1).toNat = a.toNat / 2 := by
  rw [BitVec.toNat_ushiftRight, Nat.shiftRight_one]

theorem byte_shiftLeft_one_toNat (a : Byte) : (a <<< 1).toNat = 2 * a.toNat % 256 := by
  rw [BitVec.toNat_shiftLeft, Nat.shiftLeft_eq, Nat.mul_comm]

theorem flag_decide (p : Prop) [Decidable p] : flag (decide p) = if p then 1 else 0 :=
  if_congr decide_eq_true_iff rfl rfl

theorem flag_toNat (b : Bool) : (flag b).toNat = b.toNat := by
  cases b <;> rfl

theorem lowBitFlag_toNat (src : Byte) : (lowBitFlag src).toNat = src.toNat % 2 := by
  rw [lowBitFlag, flag_toNat, BitVec.getLsbD, Nat.toNat_testBit, pow_zero, Nat.div_one]

theorem highBitFlag_toNat (src : Byte) : (highBitFlag src).toNat = src.toNat / 128 := by
  rw [highBitFlag, flag_toNat, BitVec.getLsbD, Nat.toNat_testBit]
  omega

/-! ## Loads, the flagless addition and the random byte -/

/-- Settles O45: each of the three is one `setV`. -/
theorem loadsAndAddByte : Obligations.LoadsAndAddByte := fun x y kk s =>
  have written (u : Byte) : (s.setV x u).getV x = u := State.getV_setV_same s x u
  ⟨⟨s.setV x kk, rfl, written _, s.sameVBut_setV x _, s.onlyV_setV x _⟩,
    ⟨s.setV x (s.getV x + kk), rfl, by rw [written, BitVec.toNat_add], s.sameVBut_setV x _, s.onlyV_setV x _⟩,
    ⟨s.setV x (s.getV y), rfl, written _, s.sameVBut_setV x _, s.onlyV_setV x _⟩⟩

/-- Settles O50: the byte written is the draw masked with `kk`; the mask's corner cases are facts about `&&&`. -/
theorem randomIsMasked : Obligations.RandomIsMasked := by
  intro x kk s
  have written : (s.draw.setV x (s.randomByte &&& kk)).getV x = s.randomByte &&& kk := State.getV_setV_same _ x _
  refine ⟨_, rfl, written, ?_, fun h0 => ?_, fun hFF => ?_, s.draw.sameVBut_setV x _, rfl, fun _ => rfl⟩
  · rw [written, BitVec.and_assoc, BitVec.and_not_self]
    exact BitVec.and_zero
  · rw [written, h0]
    exact BitVec.and_zero
  · rw [written, hFF]
    exact BitVec.and_allOnes

/-! ## The logic instructions -/

theorem State.logicVF_of_false {s : State} (h : s.params.logicResetsVF = false) : s.logicVF = s :=
  if_neg (by rw [h]; exact Bool.false_ne_true)

theorem State.logicVF_of_true {s : State} (h : s.params.logicResetsVF = true) : s.logicVF = s.setVF 0 :=
  if_pos h

/-- Settles O46: the three instructions write their result and run `logicVF`, which resets `VF` or does nothing. -/
theorem logicInstructions : Obligations.LogicInstructions := by
  refine ⟨rfl, fun x y s i result hi => ?_⟩
  have he : exec i s = .next (s.setV x result).logicVF := by
    simp only [List.mem_cons, Prod.mk.injEq, List.not_mem_nil, or_false] at hi
    rcases hi with ⟨rfl, rfl⟩ | ⟨rfl, rfl⟩ | ⟨rfl, rfl⟩ <;> rfl
  cases hp : s.params.logicResetsVF with
  | false =>
    rw [State.logicVF_of_false (s := s.setV x result) hp] at he
    exact ⟨_, he, s.onlyV_setV x _, fun _ => ⟨s.getV_setV_same x _, s.sameVBut_setV x _⟩, nofun⟩
  | true =>
    rw [State.logicVF_of_true (s := s.setV x result) hp] at he
    exact ⟨_, he, s.onlyV_setV_setVF x _ _, nofun,
      fun _ => ⟨State.getV_setVF_same _ _, fun hx => s.getV_setV_setVF x hx _ _, s.sameVBut_setV_setVF x _ _⟩⟩

/-! ## Additions, subtractions and shifts -/

/-- Settles O47: the sum is written, then `VF` with the carry of the old values. -/
theorem addRegisterSetsCarry : Obligations.AddRegisterSetsCarry := by
  intro x y s
  refine ⟨_, rfl, fun hx => ?_, ?_, s.sameVBut_setV_setVF x _ _, s.onlyV_setV_setVF x _ _⟩
  · rw [State.getV_setV_setVF s x hx, BitVec.toNat_add]
  · rw [State.getV_setVF_same, carryFlag, flag_decide]

/-- What both subtractions do with a minuend `a` and a subtrahend `b` (R195, R199). -/
theorem subtraction_setsNoBorrow {i : Instr} {a b : Byte} (h : exec i s = .next ((s.setV x (a - b)).setVF (noBorrowFlag a b))) :
    ∃ t, exec i s = .next t ∧ (x ≠ 0xF → ((t.getV x).toNat : Int) = (a.toNat - b.toNat : Int) % 256) ∧
      t.getV 0xF = (if a.toNat ≥ b.toNat then 0x01 else 0x00) ∧ SameVBut [x, 0xF] s t ∧ OnlyV s t := by
  refine ⟨_, h, fun hx => ?_, ?_, s.sameVBut_setV_setVF x _ _, s.onlyV_setV_setVF x _ _⟩
  · rw [State.getV_setV_setVF s x hx, byte_sub_toNat]
  · rw [State.getV_setVF_same, noBorrowFlag, flag_decide]

/-- Settles O48: the two instructions are one subtraction with its operands exchanged. -/
theorem subtractionsSetNoBorrow : Obligations.SubtractionsSetNoBorrow := fun x _ s =>
  ⟨subtraction_setsNoBorrow s x rfl, subtraction_setsNoBorrow s x rfl⟩

/-- Settles O49: the source is `shiftSource`; its shift is written, then `VF` with the bit shifted out. -/
theorem shiftsSetTheBitShiftedOut : Obligations.ShiftsSetTheBitShiftedOut := by
  refine ⟨rfl, fun x y s src hsrc => ?_⟩
  obtain rfl : src = s.shiftSource x y := hsrc
  refine ⟨⟨_, rfl, fun hx => ?_, ?_, s.sameVBut_setV_setVF x _ _, s.onlyV_setV_setVF x _ _⟩,
    ⟨_, rfl, fun hx => ?_, ?_, s.sameVBut_setV_setVF x _ _, s.onlyV_setV_setVF x _ _⟩⟩
  · rw [State.getV_setV_setVF s x hx, byte_shiftRight_one_toNat]
  · rw [State.getV_setVF_same, lowBitFlag_toNat]
  · rw [State.getV_setV_setVF s x hx, byte_shiftLeft_one_toNat]
  · rw [State.getV_setVF_same, highBitFlag_toNat]

end Sys2Proof.Machine

/-! The decode rules of classes A, D and F (`46_index_memory_draw.md` R210 to R224, `47_timers_keys.md` R230 to R236). -/

namespace Sys2Proof

variable {r : Row} {w : Word}

/-- The rows of class F look at the class and the low byte (R76). -/
theorem mask_of_class_F : ∀ r ∈ classRows 0xF, r.mask = 0xF0FF := by decide

theorem decode_of_class_F (hc : fF000 w = 0xF) (hr : r ∈ classRows 0xF) (hb : f00FF w = f00FF r.expected) :
    decode w = .decoded (r.build w) :=
  decode_of_mask_F0FF hc hr (mask_of_class_F r hr) hb

/-- Settles O12: the rows of classes A and D look at the class alone, those of class F at the low byte too, and the illegal words of
class F are those of `illegalWords`. -/
theorem decodeRulesOfClassesADF : Obligations.DecodeRulesOfClassesADF := by
  refine ⟨rfl, rfl, rfl, fun w => ⟨?_, ?_, fun hc => ⟨?_, ?_, ?_, ?_, ?_, ?_, ?_, ?_, ?_, ?_⟩⟩⟩
  · exact fun hc => decode_of_mask_F000 (r := ⟨0xA000, 0xF000, .a, .loadIndex⟩) hc (by decide) rfl nofun
  · exact fun hc => decode_of_mask_F000 (r := ⟨0xD000, 0xF000, .xyn, .displaySprite⟩) hc (by decide) rfl nofun
  · exact decode_of_class_F (r := ⟨0xF007, 0xF0FF, .x, .loadFromDelay⟩) hc (by decide)
  · exact decode_of_class_F (r := ⟨0xF00A, 0xF0FF, .x, .loadKeyPress⟩) hc (by decide)
  · exact decode_of_class_F (r := ⟨0xF015, 0xF0FF, .x, .loadDelay⟩) hc (by decide)
  · exact decode_of_class_F (r := ⟨0xF018, 0xF0FF, .x, .loadSound⟩) hc (by decide)
  · exact decode_of_class_F (r := ⟨0xF01E, 0xF0FF, .x, .addIndex⟩) hc (by decide)
  · exact decode_of_class_F (r := ⟨0xF029, 0xF0FF, .x, .loadFont⟩) hc (by decide)
  · exact decode_of_class_F (r := ⟨0xF033, 0xF0FF, .x, .storeBcd⟩) hc (by decide)
  · exact decode_of_class_F (r := ⟨0xF055, 0xF0FF, .x, .storeRegisters⟩) hc (by decide)
  · exact decode_of_class_F (r := ⟨0xF065, 0xF0FF, .x, .loadRegisters⟩) hc (by decide)
  · exact fun hb => (illegalWords w).mpr (.inr (.inr (.inr (.inr ⟨hc, hb⟩))))

end Sys2Proof

/-! The instructions that access memory through `I` (`46_index_memory_draw.md` R213, R219, R221, R223, R225). -/

namespace Sys2Proof.Machine

/-! ## Accesses above `0xFFF` (R225) -/

/-- The instruction accesses the given number of bytes from `I` upward. -/
inductive AccessesBytes : Instr → Nat → Prop where
  /-- One byte per sprite row (R213). -/
  | displaySprite (x y : Register) (n : Nibble) : AccessesBytes (.displaySprite x y n) n.toNat
  /-- Three digits (R219). -/
  | storeBcd (x : Register) : AccessesBytes (.storeBcd x) 3
  /-- `V0` to `Vx` (R221). -/
  | storeRegisters (x : Register) : AccessesBytes (.storeRegisters x) (x.toNat + 1)
  /-- `V0` to `Vx` (R223). -/
  | loadRegisters (x : Register) : AccessesBytes (.loadRegisters x) (x.toNat + 1)

variable (s : State)

/-- Byte `k` stands `k` above the first (R225). -/
theorem State.ea_eq_add (k : Nat) : s.ea k = s.ea 0 + k := rfl

variable {s}

/-- With some byte above `0xFFF` none of the four instructions does anything but report the first such address. -/
theorem exec_raises_of_access_above {i : Instr} {bytes : Nat} (ha : AccessesBytes i bytes) (hn : bytes ≠ 0)
    (h : 0xFFF < s.ea (bytes - 1)) :
    ∃ t, exec i s = .next t ∧ OnlyReports s t (.execError (.memOutOfBounds (max (s.ea 0) 0x1000))) := by
  refine ⟨_, ?_, s.onlyReports_raiseExec _⟩
  have hout : 0x1000 < s.ea bytes := by
    rw [State.ea_eq_add] at h ⊢
    omega
  cases ha with
  | displaySprite x y n =>
    exact ((exec_displaySprite_cases s x y n).resolve_right fun ⟨hin, _⟩ => (hin.resolve_left hn).not_gt hout).2.2
  | storeBcd x => exact ((exec_storeBcd_cases s x).resolve_right fun ⟨hin, _⟩ => hin.not_gt hout).2
  | storeRegisters x => exact ((exec_storeRegisters_cases s x).resolve_right fun ⟨hin, _⟩ => hin.not_gt hout).2
  | loadRegisters x => exact ((exec_loadRegisters_cases s x).resolve_right fun ⟨hin, _⟩ => hin.not_gt hout).2

/-- The first address above `0xFFF` is `I` itself, or else `0x1000`. -/
theorem State.ea_of_first_above {k : Nat} (h : 0xFFF < s.ea k) (hfirst : ∀ j, j < k → s.ea j ≤ 0xFFF) :
    s.ea k = max (s.ea 0) 0x1000 := by
  cases k with
  | zero => omega
  | succ k =>
    have hk : s.ea k ≤ 0xFFF := hfirst k k.lt_succ_self
    rw [State.ea_eq_add] at h hk ⊢
    omega

/-- Settles O58: `exec_raises_of_access_above`, whose address is the one of `State.ea_of_first_above`. -/
theorem accessAboveMemoryRaises : Obligations.AccessAboveMemoryRaises := by
  intro i bytes s k hi hk hout hfirst
  have ha : AccessesBytes i bytes := by
    rcases hi with ⟨x, y, n, rfl, rfl⟩ | ⟨x, rfl, rfl⟩ | ⟨x, rfl, rfl⟩ | ⟨x, rfl, rfl⟩
    · exact .displaySprite x y n
    · exact .storeBcd x
    · exact .storeRegisters x
    · exact .loadRegisters x
  have hlast : 0xFFF < s.ea (bytes - 1) := by
    rw [State.ea_eq_add] at hout ⊢
    omega
  rw [State.ea_of_first_above hout hfirst]
  exact exec_raises_of_access_above ha (by omega) hlast

/-! ## Sprites (R213) -/

theorem exec_displaySprite_of_le (x y : Register) {n : Nibble} (h : n.toNat = 0 ∨ s.ea (n.toNat - 1) ≤ 0xFFF) :
    exec (.displaySprite x y n) s = .next (s.drawSprite x y ((List.range n.toNat).map fun k => s.mem.read (s.ea k))) := by
  rcases exec_displaySprite_cases s x y n with ⟨hn, hout, -⟩ | ⟨-, he⟩
  · have hin := h.resolve_left hn
    rw [State.ea_eq_add] at hin hout
    omega
  · exact he

/-- Settles O54: the two branches of `drawSprite_cases`, told apart by whether there is a row. -/
theorem displaySpriteDraws : Obligations.DisplaySpriteDraws := by
  refine fun x y n s => ⟨fun h => ⟨_, exec_displaySprite_of_le x y h, ?_⟩,
    fun hn hout => exec_raises_of_access_above (.displaySprite x y n) hn hout⟩
  have hrows : (List.range n.toNat).map (fun k => s.mem.read (s.ea k)) = [] ↔ n.toNat = 0 := by
    rw [List.map_eq_nil_iff, List.range_eq_nil]
  rcases s.drawSprite_cases x y _ with ⟨hnil, hd⟩ | ⟨hne, hd⟩ <;> rw [hd]
  · exact ⟨fun _ => ⟨State.getV_setVF_same s 0, rfl⟩, fun hn => absurd (hrows.mp hnil) hn, s.sameVBut_setV 0xF 0, rfl, fun _ => rfl⟩
  · exact ⟨fun hn => absurd (hrows.mpr hn) hne, fun _ => ⟨State.getV_setVF_same _ _, rfl⟩, State.sameVBut_setV _ 0xF _, rfl,
      fun _ => rfl⟩

/-! ## Bytes placed from `I` upward -/

section Placed

variable {us : List Byte} {n : Nat}

theorem State.read_place_inside (hs : s.MemoryOk) (hn : us.length = n + 1) (h : s.ea n ≤ 0xFFF) {k : Nat} (hk : k < us.length) :
    (s.place (s.ea 0) us).mem.read (s.ea k) = us[k] := by
  rw [State.ea_eq_add] at h
  exact Memory.read_writeAll_inside hs (by omega) k hk

theorem State.read_place_outside (hn : us.length = n + 1) {a : Nat} (ha : a < s.ea 0 ∨ s.ea n < a) :
    (s.place (s.ea 0) us).mem.read a = s.mem.read a := by
  rw [State.ea_eq_add s n] at ha
  exact Memory.read_writeAll_outside (by omega) s.mem

end Placed

theorem exec_storeBcd_of_le (x : Register) (h : s.ea 2 ≤ 0xFFF) :
    exec (.storeBcd x) s = .next (s.place (s.ea 0) (bcdDigits (s.getV x))) := by
  rcases exec_storeBcd_cases s x with ⟨hout, -⟩ | ⟨-, he⟩
  · rw [State.ea_eq_add] at h hout
    omega
  · exact he

/-- Settles O55: the three bytes placed are `bcdDigits`, each below 256 and so not reduced. -/
theorem storeBcdWritesDigits : Obligations.StoreBcdWritesDigits := by
  refine fun x s => ⟨fun hs h => ⟨_, exec_storeBcd_of_le x h, ?_⟩, exec_raises_of_access_above (.storeBcd x) (by decide)⟩
  have hu := (s.getV x).isLt
  have hlen : (bcdDigits (s.getV x)).length = 2 + 1 := rfl
  refine ⟨?_, ?_, ?_, fun a ha => State.read_place_outside hlen ha, rfl⟩
  · rw [State.read_place_inside hs hlen h (k := 0) (by omega)]
    exact Nat.mod_eq_of_lt (by omega)
  · rw [State.read_place_inside hs hlen h (k := 1) (by omega)]
    exact Nat.mod_eq_of_lt (by omega)
  · rw [State.read_place_inside hs hlen h (k := 2) (by omega)]
    exact Nat.mod_eq_of_lt (by omega)

/-! ## Register runs (R221, R223) -/

theorem State.advanceI_i_toNat (s : State) (x : Register) :
    (s.advanceI x).i.toNat = if s.params.loadstoreIncrementsI then (s.i.toNat + x.toNat + 1) % 65536 else s.i.toNat := by
  rw [State.advanceI_i]
  split
  · bv_omega
  · rfl

theorem exec_storeRegisters_of_le (x : Register) (h : s.ea x.toNat ≤ 0xFFF) :
    exec (.storeRegisters x) s = .next ((s.place (s.ea 0) (s.firstRegisters x)).advanceI x) := by
  rcases exec_storeRegisters_cases s x with ⟨hout, -⟩ | ⟨-, he⟩
  · rw [State.ea_eq_add] at h hout
    omega
  · exact he

/-- Settles O56: the bytes placed are `firstRegisters`. -/
theorem storeRegistersWritesTheRun : Obligations.StoreRegistersWritesTheRun := by
  refine ⟨rfl, fun x s => ⟨fun hs h => ⟨_, exec_storeRegisters_of_le x h, fun r hr => ?_, fun a ha => ?_, ?_, rfl⟩,
    exec_raises_of_access_above (.storeRegisters x) (Nat.succ_ne_zero _)⟩⟩
  · rw [State.advanceI_mem, State.read_place_inside hs (s.length_firstRegisters x) h (by rw [s.length_firstRegisters]; omega),
      State.getElem_firstRegisters, BitVec.ofNat_toNat, BitVec.setWidth_eq]
  · exact State.read_place_outside (s.length_firstRegisters x) ha
  · exact State.advanceI_i_toNat _ x

theorem exec_loadRegisters_of_le (x : Register) (h : s.ea x.toNat ≤ 0xFFF) :
    exec (.loadRegisters x) s =
      .next ((s.setRegisters 0 ((List.range (x.toNat + 1)).map fun k => s.mem.read (s.ea k))).advanceI x) := by
  rcases exec_loadRegisters_cases s x with ⟨hout, -⟩ | ⟨-, he⟩
  · rw [State.ea_eq_add] at h hout
    omega
  · exact he

/-- A register up to `Vx` takes its byte of a run computed by `f`, a register above keeps its own. -/
theorem State.getV_setRegisters_range (s : State) (x : Register) (f : Nat → Byte) (r : Register) :
    (s.setRegisters 0 ((List.range (x.toNat + 1)).map f)).getV r = if r.toNat ≤ x.toNat then f r.toNat else s.getV r := by
  have hx := x.isLt
  rw [State.getV_setRegisters s (by simp only [List.length_map, List.length_range]; omega)]
  simp [dite_eq_ite]

/-- Settles O57: the run read goes to the registers by `State.getV_setRegisters_range`, and nothing but `v` and `I` is written. -/
theorem loadRegistersReadsTheRun : Obligations.LoadRegistersReadsTheRun := by
  refine ⟨rfl, fun x s => ⟨fun h => ⟨_, exec_loadRegisters_of_le x h, fun r hr => ?_, fun r hr => ?_, ?_, ?_⟩,
    exec_raises_of_access_above (.loadRegisters x) (Nat.succ_ne_zero _)⟩⟩
  · rw [State.advanceI_getV, State.getV_setRegisters_range, if_pos hr]
  · rw [State.advanceI_getV, State.getV_setRegisters_range, if_neg hr.not_ge]
  · rw [State.advanceI_i_toNat, State.setRegisters_frame]
  · rw [State.setRegisters_frame]
    exact ⟨rfl, fun _ => rfl⟩

end Sys2Proof.Machine

/-! The instructions that write `I` (`46_index_memory_draw.md` R211, R215, R217). -/

namespace Sys2Proof.Machine

variable {s : State}

/-! ## `LoadIndex` and `AddIndex` -/

theorem exec_addIndex_of_false (x : Register) (h : s.params.addindexSetsVF = false) :
    exec (.addIndex x) s = .next (s.setI (s.i + (s.getV x).setWidth 16)) :=
  congrArg Host.Outcome.next (if_neg (ne_true_of_eq_false h))

theorem exec_addIndex_of_true (x : Register) (h : s.params.addindexSetsVF = true) :
    exec (.addIndex x) s = .next ((s.setI (s.i + (s.getV x).setWidth 16)).setVF (indexFlag s.i (s.getV x))) :=
  congrArg Host.Outcome.next (if_pos h)

theorem index_add_toNat (a : Word) (u : Byte) : (a + u.setWidth 16).toNat = (a.toNat + u.toNat) % 65536 := by
  rw [BitVec.toNat_add, BitVec.toNat_setWidth_of_le (by decide)]

/-- Settles O51: each writes `I` once, and `AddIndex` writes `VF` after it or not at all. -/
theorem indexWrites : Obligations.IndexWrites := by
  refine ⟨rfl, fun nnn x s => ⟨⟨s.setI (target nnn), rfl, target_toNat nnn, rfl, fun _ => rfl⟩, ?_⟩⟩
  cases hp : s.params.addindexSetsVF with
  | false => exact ⟨_, exec_addIndex_of_false x hp, index_add_toNat _ _, fun _ => rfl, nofun, rfl, fun _ => rfl⟩
  | true =>
    refine ⟨_, exec_addIndex_of_true x hp, index_add_toNat _ _, nofun, fun _ => ⟨?_, State.sameVBut_setV _ 0xF _⟩, rfl, fun _ => rfl⟩
    rw [State.getV_setVF_same, indexFlag, flag_decide]

/-! ## `LoadFont` -/

theorem State.fontAddress_toNat_of_digit {d : Byte} (h : d.toNat ≤ 0xF) :
    (s.fontAddress d).toNat = (s.params.fontBase.toNat + 5 * d.toNat) % 65536 := by
  rw [State.fontAddress, if_pos h]
  bv_omega

/-- Settles O52: the address is `FONT_BASE + 5 * V[x]`. -/
theorem loadFontOfADigit : Obligations.LoadFontOfADigit :=
  fun x s h => ⟨s.draw.setI (s.fontAddress (s.getV x)), rfl, State.fontAddress_toNat_of_digit h, rfl, fun _ => rfl⟩

/-- Settles O53: `LoadFont` draws a free value and writes `I`, whatever the address. -/
theorem loadFontAboveFifteenRuns : Obligations.LoadFontAboveFifteenRuns :=
  fun x s _ => ⟨s.draw.setI (s.fontAddress (s.getV x)), rfl, rfl, fun _ => rfl⟩

end Sys2Proof.Machine

/-! Timer and key-wait instructions (`47_timers_keys.md` R231 to R237). -/

namespace Sys2Proof.Machine

/-- Settles O59: each of the three is one update, `setV`, `setDt` or `setSt`. -/
theorem timerInstructions : Obligations.TimerInstructions := fun x s =>
  ⟨⟨s.setV x s.dt, rfl, s.getV_setV_same x _, s.sameVBut_setV x _, s.onlyV_setV x _⟩,
    ⟨s.setDt (s.getV x), rfl, rfl, rfl, fun _ => rfl⟩, ⟨s.setSt (s.getV x), rfl, rfl, rfl, fun _ => rfl⟩⟩

/-- Settles O60: the two answers of the keyboard, whatever they depend on; a key's number fits in eight bits. -/
theorem loadKeyPressWaitsOrTakesTheKey : Obligations.LoadKeyPressWaitsOrTakesTheKey := by
  intro x s
  refine ⟨s.draw.takeKey x (Config.keyPressed s.draws), rfl, ?_⟩
  cases Config.keyPressed s.draws with
  | none => exact ⟨fun _ => rfl, rfl, rfl⟩
  | some k =>
    refine ⟨fun _ => rfl, ?_, s.draw.sameVBut_setV x _, rfl⟩
    rw [State.takeKey, State.getV_setV_same]
    exact BitVec.toNat_setWidth_of_le (by decide)

end Sys2Proof.Machine

/-! A run of ticks (`60_exceptions.md` R256). -/

namespace Sys2Proof.Machine

theorem timerAfter_zero (u : Byte) : timerAfter 0 u = u := by
  rw [timerAfter, Nat.sub_zero, BitVec.ofNat_toNat, BitVec.setWidth_eq]

/-- One tick first, then the rest: both stop at zero, so the truncated subtractions add up. -/
theorem timerAfter_succ (n : Nat) (u : Byte) : timerAfter (n + 1) u = timerAfter n (timerDown u) := by
  rw [timerAfter, timerAfter, timerDown_toNat, Nat.sub_sub, Nat.add_comm n 1]

theorem State.tickMany_zero (s : State) : s.tickMany 0 = s := by
  rw [State.tickMany, timerAfter_zero, timerAfter_zero]

theorem State.tickMany_succ (n : Nat) (s : State) : s.tickMany (n + 1) = s.tick.tickMany n := by
  rw [State.tickMany, timerAfter_succ, timerAfter_succ]
  rfl

/-- Settles O35, by induction on the number of ticks, the first tick taken apart. -/
theorem tickManyIsRepeatedTicks : Obligations.TickManyIsRepeatedTicks := by
  intro n
  induction n with
  | zero => exact State.tickMany_zero
  | succ n ih =>
    intro s
    rw [State.tickMany_succ, ih, Function.iterate_succ_apply]

end Sys2Proof.Machine

/-! The steps that run no instruction: `NoOp` (R127, R246), an illegal word (R242), a fetch out of bounds (R122, R243). -/

namespace Sys2Proof.Machine

variable {s : State}

/-- Settles O19: within bounds the cycle dispatches the word, and the word 0 is `NoOp`. -/
theorem noOpStepOnlyAdvances : Obligations.NoOpStepOnlyAdvances := by
  intro s hrun hin hw
  rw [step_of_running hrun, State.cycle_of_le hin, decode_eq_noOp_iff.mpr hw]
  rfl

/-- `UnknownOpcode` changes the report, the end of the run and the log alone (R242). -/
theorem State.raiseUnknown_frame (s : State) (w : Word) :
    s.raiseUnknown w = { s with
      status := (s.raiseUnknown w).status, stopped := (s.raiseUnknown w).stopped, log := (s.raiseUnknown w).log } := by
  unfold State.raiseUnknown
  split <;> rfl

/-- Settles O20: the cycle raises `UnknownOpcode` in the state the fetch left, in which `HALT` and the end of the run are clear. -/
theorem unknownOpcodeStep : Obligations.UnknownOpcodeStep := by
  intro s w hrun hin hd
  have ⟨hhalt, hstopped, _⟩ := hrun
  have hw : w = s.fetchWord := ((decode_eq_unknownOpcode_iff_firstRow w).mp hd).1
  refine ⟨(s.elapse.advance (.unknownOpcode w)).raiseUnknown w, ?_, hw, State.raiseUnknown_status _ w, State.raiseUnknown_pc _ w, ?_, ?_,
    State.raiseUnknown_log _ w, ?_, sameBytes_of_mem_eq (State.raiseUnknown_mem _ w)⟩
  · rw [step_of_running hrun, State.cycle_of_le hin, hd]
    rfl
  · exact (State.raiseUnknown_halt _ w).trans hhalt
  · rw [State.raiseUnknown_stopped, State.advance_stopped, State.elapse_stopped, hstopped, Bool.false_or]
    rfl
  · rw [State.raiseUnknown_frame]
    rfl

/-- Out of bounds a cycle halts the machine: the driver's ticks do not touch `PC`. -/
theorem State.cycle_of_gt (h : 0xFFE < s.pc.toNat) : s.cycle = .next s.elapse.raiseFetch := by
  rcases s.elapse.fetchStep_cases with ⟨hin, -⟩ | ⟨-, hf⟩
  · exact absurd h hin.not_gt
  · rw [State.cycle, hf]
    rfl

/-- Settles O21: out of bounds the cycle is `raiseFetch`, and with `HALT` set the gate is closed. -/
theorem fetchOutOfBoundsStep : Obligations.FetchOutOfBoundsStep := by
  intro s hrun hout
  refine ⟨s.elapse.raiseFetch, (step_of_running hrun).trans (State.cycle_of_gt hout), rfl, rfl, rfl, ?_,
    (haltedOrEndedTakesNoStep _).1 rfl⟩
  rw [State.raiseFetch_eq]
  rfl

end Sys2Proof.Machine

/-! The precision of errors (R249) and the writers of `I`, `DT`, `ST` (`10_state.md` sections 3, 6) and of the renderer's calls (R258). -/

namespace Sys2Proof.Machine

/-- Settles O32: an instruction that keeps `Control` leaves the status at `ok`, so a reported error was raised in the state before. -/
theorem failingInstructionIsPrecise : Obligations.FailingInstructionIsPrecise := by
  intro i s t e hok h hreport
  rcases exec_reports_or_keeps_control h with ⟨e', rfl⟩ | hc
  · rw [← hreport]
    exact ⟨s.onlyReports_raiseExec e', s.raiseExec_stopped e'⟩
  · have hstatus : t.status = s.status := congrArg Control.status hc
    rw [hstatus, hok] at hreport
    cases hreport

/-- `I`, the timers and the renderer's calls. -/
structure Special where
  /-- `I` (R25). -/
  i : Word
  /-- `DT` (R33). -/
  dt : Byte
  /-- `ST` (R33). -/
  st : Byte
  /-- The calls made to the renderer (R258). -/
  rendered : List RendererCall

/-- The part of a state that `Special` names. -/
def State.special (s : State) : Special where
  i := s.i
  dt := s.dt
  st := s.st
  rendered := s.rendered

/-- All that an instruction can do to `Special`. -/
inductive SpecialEffect (s : State) : Instr → Special → Prop where
  /-- Nothing; an error changes nothing here either (R249). -/
  | kept (i : Instr) : SpecialEffect s i s.special
  /-- `LoadIndex` (R211). -/
  | indexLoaded (nnn : Address) : SpecialEffect s (.loadIndex nnn) { s.special with i := target nnn }
  /-- `AddIndex` (R215). -/
  | indexAdded (x : Register) : SpecialEffect s (.addIndex x) { s.special with i := s.i + (s.getV x).setWidth 16 }
  /-- `LoadFont` (R217). -/
  | fontLoaded (x : Register) : SpecialEffect s (.loadFont x) { s.special with i := s.fontAddress (s.getV x) }
  /-- `StoreRegisters` under `LOADSTORE_INCREMENTS_I` (R221). -/
  | stored (x : Register) (incr : s.params.loadstoreIncrementsI = true) :
      SpecialEffect s (.storeRegisters x) { s.special with i := s.i + x.setWidth 16 + 1 }
  /-- `LoadRegisters` under `LOADSTORE_INCREMENTS_I` (R223). -/
  | loaded (x : Register) (incr : s.params.loadstoreIncrementsI = true) :
      SpecialEffect s (.loadRegisters x) { s.special with i := s.i + x.setWidth 16 + 1 }
  /-- `LoadDelay` (R235). -/
  | delaySet (x : Register) : SpecialEffect s (.loadDelay x) { s.special with dt := s.getV x }
  /-- `LoadSound` (R237). -/
  | soundSet (x : Register) : SpecialEffect s (.loadSound x) { s.special with st := s.getV x }
  /-- `ClearScreen` (R141). -/
  | cleared : SpecialEffect s .clearScreen { s.special with rendered := .clear :: s.rendered }
  /-- `DisplaySprite` with at least one row (R213). -/
  | drawn (x y : Register) (n : Nibble) (rows : List Byte) :
      SpecialEffect s (.displaySprite x y n) { s.special with rendered := .draw (s.getV x) (s.getV y) rows :: s.rendered }

variable (s : State)

/-! ## The updates that branch or recurse -/

theorem State.logicVF_special : s.logicVF.special = s.special := by
  unfold State.logicVF
  split <;> rfl

theorem State.indexVF_special (u : Byte) : (s.indexVF u).special = s.special := by
  unfold State.indexVF
  split <;> rfl

theorem State.takeKey_special (x : Register) (key : Option (BitVec 4)) : (s.takeKey x key).special = s.special := by
  cases key <;> rfl

theorem State.drawSprite_special (x y : Register) (n : Nibble) (rows : List Byte) :
    SpecialEffect s (.displaySprite x y n) (s.drawSprite x y rows).special := by
  rcases s.drawSprite_cases x y rows with ⟨-, hd⟩ | ⟨-, hd⟩ <;> rw [hd]
  · exact .kept _
  · exact .drawn x y n rows

theorem State.setRegisters_special (k : Nat) (us : List Byte) : (s.setRegisters k us).special = s.special := by
  rw [State.setRegisters_frame]
  rfl

/-! ## One instruction -/

variable {s} {t : State} {i : Instr}

theorem SpecialEffect.of_eq (h : t.special = s.special) : SpecialEffect s i t.special := h ▸ .kept i

/-- After other writes, `I` is advanced under `LOADSTORE_INCREMENTS_I` alone. -/
theorem SpecialEffect.of_advanceI {u : State} {x : Register} (hu : u.special = s.special) (hp : u.params = s.params)
    (hadv : s.params.loadstoreIncrementsI = true → SpecialEffect s i { s.special with i := s.i + x.setWidth 16 + 1 }) :
    SpecialEffect s i (u.advanceI x).special := by
  have hi : u.i = s.i := congrArg Special.i hu
  cases hinc : s.params.loadstoreIncrementsI with
  | false =>
    have hsame : (u.advanceI x).special = u.special := by rw [State.advanceI, hp, hinc]; rfl
    exact .of_eq (hsame.trans hu)
  | true =>
    have hadded : (u.advanceI x).special = { u.special with i := u.i + x.setWidth 16 + 1 } := by
      rw [State.advanceI, hp, hinc]; rfl
    rw [hadded, hu, hi]
    exact hadv hinc

/-- Every instruction that answers a next state has one of the effects of `SpecialEffect`. -/
theorem exec_special (h : exec i s = .next t) : SpecialEffect s i t.special := by
  cases i with
  | ret =>
    rcases exec_ret_cases s with ⟨-, he⟩ | ⟨_, _, -, he⟩ <;> obtain rfl := next_unique h he <;> exact .kept _
  | call nnn =>
    rcases exec_call_cases s nnn with ⟨-, he⟩ | ⟨_, _, he⟩ <;> obtain rfl := next_unique h he <;> exact .kept _
  | sys nnn =>
    rcases exec_sys_cases s nnn with ⟨-, he⟩ | ⟨-, he⟩ <;> obtain rfl := next_unique h he <;> exact .kept _
  | storeBcd x =>
    rcases exec_storeBcd_cases s x with ⟨-, he⟩ | ⟨-, he⟩ <;> obtain rfl := next_unique h he <;> exact .kept _
  | displaySprite x y n =>
    rcases exec_displaySprite_cases s x y n with ⟨-, -, he⟩ | ⟨-, he⟩ <;> obtain rfl := next_unique h he
    · exact .kept _
    · exact s.drawSprite_special x y n _
  | storeRegisters x =>
    rcases exec_storeRegisters_cases s x with ⟨-, he⟩ | ⟨-, he⟩ <;> obtain rfl := next_unique h he
    · exact .kept _
    · exact .of_advanceI rfl rfl (.stored x)
  | loadRegisters x =>
    rcases exec_loadRegisters_cases s x with ⟨-, he⟩ | ⟨-, he⟩ <;> obtain rfl := next_unique h he
    · exact .kept _
    · exact .of_advanceI (s.setRegisters_special 0 _) (congrArg Control.params (s.setRegisters_control 0 _)) (.loaded x)
  | skipKeyPress x =>
    obtain ⟨_, -, rfl⟩ := (exec_key_skips s x).1 h
    exact .kept _
  | skipKeyNotPress x =>
    obtain ⟨_, -, rfl⟩ := (exec_key_skips s x).2 h
    exact .kept _
  | loadKeyPress x => exact .of_eq (Host.Outcome.next.inj h ▸ s.draw.takeKey_special x _)
  | orRegister | andRegister | xorRegister => exact .of_eq (Host.Outcome.next.inj h ▸ State.logicVF_special _)
  | addIndex x =>
    obtain rfl := Host.Outcome.next.inj h
    rw [State.indexVF_special]
    exact .indexAdded x
  | loadIndex nnn => exact Host.Outcome.next.inj h ▸ .indexLoaded nnn
  | loadFont x => exact Host.Outcome.next.inj h ▸ .fontLoaded x
  | loadDelay x => exact Host.Outcome.next.inj h ▸ .delaySet x
  | loadSound x => exact Host.Outcome.next.inj h ▸ .soundSet x
  | clearScreen => exact Host.Outcome.next.inj h ▸ .cleared
  | jump | jumpOffset | skipEqualByte | skipNotEqualByte | skipEqualRegister | skipNotEqualRegister | loadByte | addByte
  | loadRegister | addRegister | subRegister | shiftRight | subNRegister | shiftLeft | random | loadFromDelay =>
    exact .of_eq (Host.Outcome.next.inj h ▸ rfl)

theorem exec_halt (h : exec i s = .next t) : t.halt = s.halt := by
  rcases exec_reports_or_keeps_control h with ⟨e, rfl⟩ | hc
  · exact s.raiseExec_halt e
  · exact congrArg Control.halt hc

/-! ## Who writes what -/

variable {g : Special}

theorem SpecialEffect.i_writers (h : SpecialEffect s i g) (hne : g.i ≠ s.i) :
    (∃ a, i = .loadIndex a) ∨ (∃ x, i = .addIndex x) ∨ (∃ x, i = .loadFont x) ∨
      (s.params.loadstoreIncrementsI = true ∧ ((∃ x, i = .storeRegisters x) ∨ (∃ x, i = .loadRegisters x))) := by
  cases h with
  | indexLoaded nnn => exact .inl ⟨nnn, rfl⟩
  | indexAdded x => exact .inr (.inl ⟨x, rfl⟩)
  | fontLoaded x => exact .inr (.inr (.inl ⟨x, rfl⟩))
  | stored x incr => exact .inr (.inr (.inr ⟨incr, .inl ⟨x, rfl⟩⟩))
  | loaded x incr => exact .inr (.inr (.inr ⟨incr, .inr ⟨x, rfl⟩⟩))
  | kept | delaySet | soundSet | cleared | drawn => exact absurd rfl hne

theorem SpecialEffect.dt_writers (h : SpecialEffect s i g) (hne : g.dt ≠ s.dt) : ∃ x, i = .loadDelay x := by
  cases h with
  | delaySet x => exact ⟨x, rfl⟩
  | kept | indexLoaded | indexAdded | fontLoaded | stored | loaded | soundSet | cleared | drawn => exact absurd rfl hne

theorem SpecialEffect.st_writers (h : SpecialEffect s i g) (hne : g.st ≠ s.st) : ∃ x, i = .loadSound x := by
  cases h with
  | soundSet x => exact ⟨x, rfl⟩
  | kept | indexLoaded | indexAdded | fontLoaded | stored | loaded | delaySet | cleared | drawn => exact absurd rfl hne

theorem SpecialEffect.rendered_writers (h : SpecialEffect s i g) (hne : g.rendered ≠ s.rendered) :
    i = .clearScreen ∨ ∃ x y n, i = .displaySprite x y n := by
  cases h with
  | cleared => exact .inl rfl
  | drawn x y n => exact .inr ⟨x, y, n, rfl⟩
  | kept | indexLoaded | indexAdded | fontLoaded | stored | loaded | delaySet | soundSet => exact absurd rfl hne

/-- Settles O31: the writers of each item among the effects of `SpecialEffect`; `HALT` belongs to `Control`. -/
theorem specialRegisterWriters : Obligations.SpecialRegisterWriters := by
  intro i s t h
  have he : SpecialEffect s i t.special := exec_special h
  exact ⟨he.i_writers, he.dt_writers, he.st_writers, he.rendered_writers, exec_halt h⟩

end Sys2Proof.Machine

/-! Words written out in the document (`95_test_vectors.md` part 1). -/

namespace Sys2Proof

/-- Settles O13: the words that stand for an instruction are its encoding, `0xFC14` and `0xEB8E` are illegal by the low byte of their
class. -/
theorem decodedExampleWords : Obligations.DecodedExampleWords :=
  ⟨(decode_eq_decoded_iff rfl).mpr (by decide), (decode_eq_decoded_iff rfl).mpr (by decide),
    (decode_eq_decoded_iff rfl).mpr (by decide), (decode_eq_decoded_iff rfl).mpr (by decide),
    (illegalWords _).mpr (by decide), (illegalWords _).mpr (by decide), decode_eq_noOp_iff.mpr rfl,
    (decode_eq_decoded_iff rfl).mpr (by decide)⟩

end Sys2Proof
